-- ==== Sys2Proof/Word.lean ====
section
/-! DEFINITION. The word types of IRFB: the register-port word and the duration sample (00_scope.md R7, R14; 20_memory.md R62). -/

namespace Sys2Proof

/-- One word of the register port (R62). -/
abbrev Word := BitVec 32

/-- One duration in microseconds, unsigned, DUR_W = 16 bits wide (R7, R14). -/
abbrev Dur := BitVec 16

end Sys2Proof
end

