-- ==== Sys2Proof/Config.lean ====
section
/-! DEFINITION. What an implementation fixes (the synthesis parameters of 00_scope.md R7, the OPEN parameters of
92_eei_decisions.md D28 and D43), what the environment chooses (R6, R9: the agents' steps and their inputs), and the
free values: constants with no body, of which nothing can be proved. -/

namespace Sys2Proof

/-- The synthesis-time parameters of R7. `step` takes no argument, so the machine carries them in its state, and no
step changes them (log entry 4). Their ranges are `Config.wf` in WellFormed.lean. -/
structure Config where
  /-- CAP: frame capacity in samples, per bank. -/
  cap : Nat
  /-- TICK_US: microseconds between two producer ticks. -/
  tickUs : Nat
  /-- LIT_MAX: entries in the literal table. -/
  litMax : Nat
deriving DecidableEq, Repr

/-- The defaults of R7. -/
def Config.default : Config where
  cap := 100
  tickUs := 1
  litMax := 8

/-- The latency parameters of R311, in cycles. No rule uses their values, and no definition of the model does. R311 says that
T_MATCH may depend on FLEN and leaves open whether it does. DESIGN CHOICE (log entry 10): it is a function of FLEN, of which a
constant one is a case, and of nothing else. Safe: the function is opaque and nothing uses it. -/
structure Latencies where
  tCdcH : Nat
  tCdcR : Nat
  tCdcEn : Nat
  tCdcPact : Nat
  tCdcLost : Nat
  /-- T_MATCH, for each value of FLEN. -/
  tMatch : Nat → Nat
deriving Inhabited

/-- The CDC channels of R9 (4). -/
inductive Channel where
  /-- SYNC_H: handoff, producer to consumer (R158). -/
  | syncH
  /-- SYNC_R: release, consumer to producer (R161). -/
  | syncR
  /-- SYNC_EN: CTRL.EN to the producer (R170). -/
  | syncEn
  /-- SYNC_PACT: the producer's enable to STATUS.PACT (R171). -/
  | syncPact
  /-- SYNC_LOST: the lost-frame count to STATUS.LOSTCNT (R172). -/
  | syncLost
deriving DecidableEq, Repr, Inhabited

/-- One register-port access: the request signals of R10 and R220. -/
structure Access where
  write : Bool
  addr : BitVec 12
  wdata : Word
deriving DecidableEq, Repr, Inhabited

/-- One step of one agent, with the input the environment gives it (R9). -/
inductive Event where
  /-- The PRODUCER's tick; the argument is `mark_in` at the tick (R120). -/
  | tick (markIn : Bool)
  /-- The HOST's register-port access (R220). -/
  | host (a : Access)
  /-- The MATCHER's completion step (R205). -/
  | matcher
  /-- A channel's delivery step (R158, R161, R170, R171, R172). -/
  | deliver (c : Channel)
  /-- RESET (R290). -/
  | reset
deriving DecidableEq, Repr, Inhabited

/-- FREE VALUE: the environment's `n`-th choice of an agent's step, used when the state's agenda is empty (R6, R9;
log entries 1 and 12). -/
opaque Config.freeEvent : Nat → Event

/-- FREE VALUE: what a sample-memory entry that nothing has written holds (R48, R292, U1; log entry 5). The argument
is the entry's key, `Machine.slotKey`. -/
opaque Config.memDraw : Nat → Dur

/-- OPEN parameter IRFB_BASE (R67, D28): where the register space sits in the host's address map. Only
Machine/Script.lean reads it. -/
opaque Config.irfbBase : Nat

/-- OPEN parameters of R311 (log entry 10). -/
opaque Config.latencies : Latencies

end Sys2Proof
end

