-- ==== Sys2Proof/Syntax.lean ====
section
/-! DEFINITION. The commands of IRFB-CMD 1.0 (30_encoding.md R81): one constructor per row of spec/opcode_table.json.
No command has an operand field (R80): every operand is a register (R83). -/

namespace Sys2Proof

/-- The five commands (R81). -/
inductive Instr where
  /-- NOP, R230. -/
  | nop
  /-- RESUME, R160. -/
  | resume
  /-- MATCH_DUR, R105. -/
  | matchDur
  /-- DECODE, R190. -/
  | decode
  /-- MATCH_LIT, R201. -/
  | matchLit
deriving DecidableEq, Repr

end Sys2Proof
end

