-- ==== Sys2Proof/WellFormed.lean ====
section
/-! DEFINITION. Well-formedness of a command (nothing to check: R80 gives no operand field) and the ranges of the
synthesis parameters (R7). -/

namespace Sys2Proof

/-- Every command is well-formed: it has no operand field (R80, R83). -/
def Instr.wf : Instr → Bool
  | .nop => true
  | .resume => true
  | .matchDur => true
  | .decode => true
  | .matchLit => true

/-- The ranges of R7: CAP 2..255, TICK_US 1..65535, LIT_MAX 1..16. -/
def Config.wf (c : Config) : Bool :=
  decide (2 ≤ c.cap ∧ c.cap ≤ 255) && decide (1 ≤ c.tickUs ∧ c.tickUs ≤ 65535) && decide (1 ≤ c.litMax ∧ c.litMax ≤ 16)

end Sys2Proof
end

