-- ==== Sys2Proof/Decode.lean ====
section
/-! DEFINITION. Decoding a command word, total over all 2^32 words (30_encoding.md R80-R82), and the encoder. -/

namespace Sys2Proof

/-- Why a command word is illegal (R82, R90 (a)). Either is answered by CmdError(BAD_CMD), R231. -/
inductive DecodeError where
  /-- w[31:4] ≠ 0. -/
  | reservedBits
  /-- OPC in 0x5..0xF. -/
  | reservedOpcode
deriving DecidableEq, Repr

/-- The field RSV, w[31:4] (R80). -/
def rsvOf (w : Word) : BitVec 28 := w.extractLsb' 4 28

/-- The field OPC, w[3:0] (R80). -/
def opcOf (w : Word) : BitVec 4 := w.extractLsb' 0 4

/-- `decode(w)` of R82. -/
def decodeWord (w : Word) : Except DecodeError Instr :=
  if rsvOf w ≠ 0 then .error .reservedBits
  else match (opcOf w).toNat with
    | 0x0 => .ok .nop
    | 0x1 => .ok .resume
    | 0x2 => .ok .matchDur
    | 0x3 => .ok .decode
    | 0x4 => .ok .matchLit
    | _ => .error .reservedOpcode

/-- The match word of each command (R81). -/
def encode : Instr → Word
  | .nop => 0x00000000#32
  | .resume => 0x00000001#32
  | .matchDur => 0x00000002#32
  | .decode => 0x00000003#32
  | .matchLit => 0x00000004#32

/-- The command the decoder reads from an instruction given as the opcode table's bits: one 32-bit word, whose bits
above `nbits` are 0. A value of more than 32 bits is no command word (R80: one format, one length). -/
def decodeTableWord (nbits w : Nat) : Option Instr :=
  if w % 2 ^ nbits < 2 ^ 32 then
    match decodeWord (BitVec.ofNat 32 (w % 2 ^ nbits)) with
    | .ok i => some i
    | .error _ => none
  else none

end Sys2Proof
end

