-- ==== Sys2Proof/Machine/State.lean ====
section
/-! DEFINITION. The state of IRFB: every piece 10_state.md names, each at the reset value of 70_reset_and_hazards.md
R291, and the model's own bookkeeping (`resp`, `agenda`, `draws`, `par`: log entries 1, 4, 6, 12). -/

namespace Sys2Proof.Machine

/-- RES_KIND.KIND (R41, R86). -/
inductive Kind where
  | none
  | matched
  | repeated
  | noMatch
deriving DecidableEq, Repr

/-- RES_KIND.REASON (R88). Code 6, `trailerBit`, is reserved and never produced; code 7 has no name and is left out. -/
inductive Reason where
  | none
  | rawCount
  | headerMark
  | headerSpace
  | dataMark
  | dataSpace
  | trailerBit
deriving DecidableEq, Repr

/-- ERRINFO.CAUSE (R89). Codes 8..15 are never produced and are left out. -/
inductive Cause where
  | none
  | badCmd
  | notReady
  | busyCmd
  | cfgLocked
  | mcfgBusy
  | litRange
  | enBusy
deriving DecidableEq, Repr

/-- CFG.BUFMODE (R28). -/
inductive BufMode where
  | double
  | single
deriving DecidableEq, Repr

/-- The level at the input (R13, R84). -/
inductive Level where
  | mark
  | space
deriving DecidableEq, Repr

/-- p.state (R47): IDLE, MARK, SPACE. -/
inductive PState where
  | idle
  | mark
  | space
deriving DecidableEq, Repr

/-- c.mop (R46): the matcher operation in progress. -/
inductive MOp where
  | none
  | matchDur
  | decode
  | matchLit
deriving DecidableEq, Repr

/-- A sample bank, 0 or 1: NBANK = 2 (R7). -/
abbrev Bank := Fin 2

/-- The sample memory: (key, sample) pairs, keys strictly rising, holding exactly the entries that something has
written (R48, R61; log entry 7). -/
abbrev SampleMem := List (Nat × Dur)

/-- STATUS (R23). -/
structure Status where
  ready : Bool
  fovf : Bool
  pact : Bool
  mbusy : Bool
  frmev : Bool
  mdone : Bool
  err : Bool
  lostcnt : BitVec 8
deriving DecidableEq, Repr

/-- IRQEN (R24). -/
structure IrqEn where
  frmev : Bool
  mdone : Bool
  err : Bool
deriving DecidableEq, Repr

/-- The producer configuration: CFG, NOISE, GAP, BIAS (R28-R31, R58). -/
structure ProducerCfg where
  bufmode : BufMode
  noise : Dur
  gap : Dur
  bias : Dur
deriving DecidableEq, Repr

/-- The matcher configuration: TOLPCT, TOLABS, MD_OBS, MD_EXP, TPL_*, LIT_LEN, LIT[k] (R32-R40, R58). `lit` has
LIT_MAX entries (log entry 14). -/
structure MatcherCfg where
  tolpct : BitVec 8
  tolabs : Dur
  mdObs : Dur
  mdExp : Dur
  tplId : BitVec 8
  tplRawlen : BitVec 8
  tplHdrmark : Dur
  tplHdrspace : Dur
  tplMarkone : Dur
  tplMarkzero : Dur
  tplSpaceone : Dur
  tplSpacezero : Dur
  stop : Bool
  hdrskip : Bool
  litLen : BitVec 5
  lit : List Dur
deriving DecidableEq, Repr

/-- The result registers RES_KIND, RES_VALUE, RES_INFO, RES_EXP, RES_OBS (R41-R44). -/
structure Result where
  kind : Kind
  reason : Reason
  value : Word
  index : BitVec 8
  bits : BitVec 8
  id : BitVec 8
  exp : Dur
  obs : Dur
deriving DecidableEq, Repr

/-- A result record of the matcher functions (R182). -/
inductive Verdict where
  | matched (value : Word) (bits : Nat)
  | repeated
  | noMatch (reason : Reason) (index : Nat) (exp obs : Dur)
deriving DecidableEq, Repr

/-- The producer-domain state p.* (R47). -/
structure Producer where
  en : Bool
  state : PState
  lev : Level
  timer : Dur
  len : Nat
  ovf : Bool
  bank : Bank
  hold : Bool
  hlen : Nat
  hbank : Bank
  hovf : Bool
  lost : BitVec 8
deriving DecidableEq, Repr

/-- The message channels ch.h and ch.r (R49). -/
structure Chan where
  h : Bool
  r : Bool
deriving DecidableEq, Repr

/-- The response signals of the last register-port access (R10, R220; log entry 6). -/
structure Response where
  rdata : Word
  err : Bool
deriving DecidableEq, Repr

/-- The machine. -/
structure State where
  /-- The synthesis parameters (R7, log entry 4). -/
  par : Config
  /-- CTRL.EN (R22). -/
  en : Bool
  /-- STATUS (R23). -/
  status : Status
  /-- IRQEN (R24). -/
  irqen : IrqEn
  /-- FLEN (R26). -/
  flen : BitVec 8
  /-- ERRINFO.CAUSE (R27). -/
  errinfo : Cause
  /-- CFG, NOISE, GAP, BIAS. -/
  pcfg : ProducerCfg
  /-- TOLPCT .. LIT[k]. -/
  mcfg : MatcherCfg
  /-- RES_* (R41-R44). -/
  res : Result
  /-- c.cbank (R46). -/
  cbank : Bank
  /-- c.mop (R46). -/
  mop : MOp
  /-- p.* (R47). -/
  p : Producer
  /-- ch.h, ch.r (R49). -/
  ch : Chan
  /-- The sample memory (R48). -/
  mem : SampleMem
  /-- The last access's response (log entry 6). -/
  resp : Response
  /-- The environment's next events (log entry 1). -/
  agenda : List Event
  /-- How many free events have been drawn (log entry 12). -/
  draws : Nat
deriving DecidableEq, Repr

/-- A step of IRFB never stops the machine: "IRFB never raises a trap and never stops" (R15). So there is no fault,
nobody raises one, and that is safe: no behaviour is cut off (log entry 11). -/
inductive Fault where
deriving DecidableEq, Repr

/-- Why a step has no meaning. -/
inductive Refusal where
  /-- For a command not modelled yet. Every command is modelled, so nothing raises it; safe. -/
  | notModelled (mnemonic : String)
deriving DecidableEq, Repr

/-- Every register, field, internal variable and channel at the value of R291, for a block built with the parameters
`c`. The sample memory lists nothing: its contents after power-on are a draw (R292). -/
def State.resetOf (c : Config) : State where
  par := c
  en := false
  status :=
    { ready := false, fovf := false, pact := false, mbusy := false, frmev := false, mdone := false, err := false,
      lostcnt := 0 }
  irqen := { frmev := false, mdone := false, err := false }
  flen := 0
  errinfo := .none
  pcfg := { bufmode := .double, noise := 50, gap := 10000, bias := 0 }
  mcfg :=
    { tolpct := 25, tolabs := 0, mdObs := 0, mdExp := 0, tplId := 0, tplRawlen := 0, tplHdrmark := 0, tplHdrspace := 0,
      tplMarkone := 0, tplMarkzero := 0, tplSpaceone := 0, tplSpacezero := 0, stop := false, hdrskip := false,
      litLen := 0, lit := List.replicate c.litMax 0 }
  res := { kind := .none, reason := .none, value := 0, index := 0, bits := 0, id := 0, exp := 0, obs := 0 }
  cbank := 0
  mop := .none
  p :=
    { en := false, state := .idle, lev := .space, timer := 0, len := 0, ovf := false, bank := 0, hold := false,
      hlen := 0, hbank := 0, hovf := false, lost := 0 }
  ch := { h := false, r := false }
  mem := []
  resp := { rdata := 0, err := false }
  agenda := []
  draws := 0

/-- The machine right after reset, with the default parameters of R7. -/
def State.reset : State := State.resetOf Config.default

end Sys2Proof.Machine
end

