-- ==== Sys2Proof/Machine/Ops.lean ====
section
/-! DEFINITION. The shared operations: the sample memory (10_state.md R48, 20_memory.md R61), saturation (00_scope.md
R12), CmdError and BusError (60_exceptions.md R261, R262: the only way IRFB reports an error, it has no exception entry
and no return, R272), and the start of a matcher command (44_host_bus.md R227). -/

namespace Sys2Proof.Machine

/-- What a step answers. -/
abbrev StepResult := Host.Outcome State Fault Refusal

/-- `1 - b` of R150 and R155: the other bank. -/
def otherBank (b : Bank) : Bank := 1 - b

/-- The key of slot `i` of bank `b` in the sample memory. Slots are below CAP ≤ 255, so keys do not collide (log
entry 7). -/
def slotKey (b : Bank) (i : Nat) : Nat := b.val * 256 + i

/-- What the memory lists at a key: `none` where nothing has been written. -/
def memRead? : SampleMem → Nat → Option Dur
  | [], _ => none
  | (k, v) :: m, a => if a = k then some v else memRead? m a

/-- Writes one entry, keeping the keys strictly rising. -/
def memWrite : SampleMem → Nat → Dur → SampleMem
  | [], a, v => [(a, v)]
  | (k, w) :: m, a, v =>
    if a < k then (a, v) :: (k, w) :: m
    else if a = k then (a, v) :: m
    else (k, w) :: memWrite m a v

/-- The canonical form: keys strictly rising. An unlisted key reads as no written value, so no entry can equal it. -/
def memWf : SampleMem → Bool
  | [] => true
  | [_] => true
  | (a, _) :: (b, w) :: m => decide (a < b) && memWf ((b, w) :: m)

/-- Every listed key is a slot that exists: bank 0 or 1, slot below CAP (R61). -/
def memInRange (cap : Nat) (m : SampleMem) : Bool :=
  m.all fun c => decide (c.1 < cap) || (decide (256 ≤ c.1) && decide (c.1 < 256 + cap))

/-- `mem[b][i]` (R12): the sample, or the free value of an entry nothing has written (R292, log entry 5). -/
def sample (s : State) (b : Bank) (i : Nat) : Dur :=
  (memRead? s.mem (slotKey b i)).getD (Config.memDraw (slotKey b i))

/-- `mem[b][i] <- v` (R12). -/
def setSample (b : Bank) (i : Nat) (v : Dur) (s : State) : State :=
  { s with mem := memWrite s.mem (slotKey b i) v }

/-- `sat16(x) = min(max(x, 0), 65535)` on unbounded integers (R12). -/
def sat16 (x : Int) : Dur := BitVec.ofNat 16 (min x.toNat 65535)

/-- `raise CmdError(code)` (R261): the cause is latched only while ERR is 0, and ERR is set. -/
def raiseCmdError (code : Cause) (s : State) : State :=
  { s with
    errinfo := if s.status.err then s.errinfo else code
    status := { s.status with err := true } }

/-- The response of an access that completes without BusError: err = 0, and rdata as given (R220). -/
def answer (rdata : Word) (s : State) : State := { s with resp := { rdata := rdata, err := false } }

/-- `raise BusError` (R262): err = 1, rdata = 0, and no other effect. -/
def raiseBusError (s : State) : State := { s with resp := { rdata := 0, err := true } }

/-- A matcher command is accepted (R227): MBUSY is set and c.mop names the operation. -/
def startMatcher (op : MOp) (s : State) : State :=
  { s with
    mop := op
    status := { s.status with mbusy := true } }

end Sys2Proof.Machine
end

