-- ==== Sys2Proof/Machine/Operands.lean ====
section
/-! DEFINITION. Operand assembly (30_encoding.md R83, 43_decode.md R180): what the commands and the producer read, all
zero-extended but BIAS, which is sign-extended. -/

namespace Sys2Proof.Machine

/-- `P = TOLPCT[7:0]`. -/
def tolPct (s : State) : Nat := s.mcfg.tolpct.toNat

/-- `A = TOLABS[15:0]`. -/
def tolAbs (s : State) : Nat := s.mcfg.tolabs.toNat

/-- `n = FLEN`, the length of the pending frame (R180). -/
def frameLen (s : State) : Nat := s.flen.toNat

/-- `S(i) = mem[c.cbank][i]` (R12, R180). -/
def frameSlot (s : State) (i : Nat) : Dur := sample s s.cbank i

/-- `LIT[k]`, the expected duration of frame slot k + 1 (R40). -/
def litEntry (s : State) (k : Nat) : Dur := s.mcfg.lit.getD k 0

/-- `L = LIT_LEN`. -/
def litCount (s : State) : Nat := s.mcfg.litLen.toNat

/-- `RL = TPL_RAWLEN[7:0]`. -/
def rawLen (s : State) : Nat := s.mcfg.tplRawlen.toNat

/-- The convention is mark-length exactly when TPL_MARKONE ≠ 0 (R85, R195). -/
def markLength (s : State) : Bool := s.mcfg.tplMarkone != 0

/-- `xs`, the expected duration of the stop mark (R199). -/
def stopMark (s : State) : Dur := if markLength s then s.mcfg.tplMarkone else s.mcfg.tplMarkzero

/-- `b = sext(BIAS[15:0])` (R31, R132). -/
def biasOf (s : State) : Int := s.pcfg.bias.toInt

/-- The level of `mark_in`: 1 is MARK (R84, R120). -/
def levelOf (markIn : Bool) : Level := if markIn then .mark else .space

/-- `e = min(p.timer + TICK_US, 65535)` (R123). -/
def elapsed (s : State) : Nat := min (s.p.timer.toNat + s.par.tickUs) 65535

end Sys2Proof.Machine
end

