-- ==== Sys2Proof/Machine/Flags.lean ====
section
/-! DEFINITION. Flags and codes: the code tables (30_encoding.md R84, R86, R88, R89), the words the flag registers read
as (44_host_bus.md R221), the W1C clear (R225), and the interrupt output (60_exceptions.md R270). -/

namespace Sys2Proof.Machine

/-- R86. -/
def kindCode : Kind → BitVec 2
  | .none => 0
  | .matched => 1
  | .repeated => 2
  | .noMatch => 3

/-- R88. -/
def reasonCode : Reason → BitVec 3
  | .none => 0
  | .rawCount => 1
  | .headerMark => 2
  | .headerSpace => 3
  | .dataMark => 4
  | .dataSpace => 5
  | .trailerBit => 6

/-- R89. -/
def causeCode : Cause → BitVec 4
  | .none => 0
  | .badCmd => 1
  | .notReady => 2
  | .busyCmd => 3
  | .cfgLocked => 4
  | .mcfgBusy => 5
  | .litRange => 6
  | .enBusy => 7

/-- R84: 0 = DOUBLE, 1 = SINGLE. -/
def bufmodeCode : BufMode → BitVec 1
  | .double => 0
  | .single => 1

/-- R84, from CFG[0]. -/
def bufmodeOf (bit : Bool) : BufMode := if bit then .single else .double

/-- STATUS as read: `{0[31:16], LOSTCNT[7:0], 0, ERR, MDONE, FRMEV, MBUSY, PACT, FOVF, READY}` (R221). -/
def statusWord (t : Status) : Word :=
  0#16 ++ t.lostcnt ++ 0#1 ++ BitVec.ofBool t.err ++ BitVec.ofBool t.mdone ++ BitVec.ofBool t.frmev ++
    BitVec.ofBool t.mbusy ++ BitVec.ofBool t.pact ++ BitVec.ofBool t.fovf ++ BitVec.ofBool t.ready

/-- IRQEN as read: the stored bits [6:4] (R221). -/
def irqenWord (e : IrqEn) : Word :=
  0#25 ++ BitVec.ofBool e.err ++ BitVec.ofBool e.mdone ++ BitVec.ofBool e.frmev ++ 0#4

/-- IRQEN from a written word: bits [6:4] (R232). -/
def irqenOf (w : Word) : IrqEn where
  frmev := w.getLsbD 4
  mdone := w.getLsbD 5
  err := w.getLsbD 6

/-- TPL_FLAGS as read: [0] STOP, [1] HDRSKIP (R38). -/
def tplFlagsWord (m : MatcherCfg) : Word := 0#30 ++ BitVec.ofBool m.hdrskip ++ BitVec.ofBool m.stop

/-- RES_KIND as read: [1:0] KIND, [6:4] REASON (R41). -/
def resKindWord (r : Result) : Word := 0#25 ++ reasonCode r.reason ++ 0#2 ++ kindCode r.kind

/-- RES_INFO as read: [7:0] INDEX, [15:8] BITS, [23:16] ID (R43). -/
def resInfoWord (r : Result) : Word := 0#8 ++ r.id ++ r.bits ++ r.index

/-- The W1C clear of STATUS[6:4] by a written word (R225). -/
def clearEvents (w : Word) (t : Status) : Status :=
  { t with
    frmev := t.frmev && !w.getLsbD 4
    mdone := t.mdone && !w.getLsbD 5
    err := t.err && !w.getLsbD 6 }

/-- The interrupt output (R270): a level, a function of the current state. -/
def irq (s : State) : Bool :=
  (s.status.frmev && s.irqen.frmev) || (s.status.mdone && s.irqen.mdone) || (s.status.err && s.irqen.err)

end Sys2Proof.Machine
end

