-- ==== Sys2Proof/Machine/Handoff.lean ====
section
/-! DEFINITION. Frame completion, RESUME and the five channel deliveries (42_handoff.md R150-R172). -/

namespace Sys2Proof.Machine

/-- `send(SYNC_H)` (R157). -/
def sendH (s : State) : State := { s with ch := { s.ch with h := true } }

/-- `send(SYNC_R)` (R160). -/
def sendR (s : State) : State := { s with ch := { s.ch with r := true } }

/-- The hand-off branch of `Complete()` (R150): payload, hold, bank swap in DOUBLE mode, SYNC_H. -/
def handOff (s : State) : State :=
  sendH
    { s with
      p :=
        { s.p with
          hlen := s.p.len
          hbank := s.p.bank
          hovf := s.p.ovf
          hold := true
          bank := if s.pcfg.bufmode = .double then otherBank s.p.bank else s.p.bank } }

/-- `p.lost <- (p.lost + 1) mod 256` (R136, R150). -/
def loseFrame (s : State) : State := { s with p := { s.p with lost := s.p.lost + 1 } }

/-- `p.len <- 0; p.ovf <- 0; p.state <- IDLE` (R150, R170). -/
def clearCapture (s : State) : State := { s with p := { s.p with len := 0, ovf := false, state := .idle } }

/-- `Complete()` (R150). -/
def complete (s : State) : State :=
  clearCapture (if s.p.hold then loseFrame s else handOff s)

/-- The release of a pending frame (R160): READY, FOVF and FLEN are cleared, and SYNC_R is sent. -/
def releaseFrame (s : State) : State :=
  sendR
    { s with
      status := { s.status with ready := false, fovf := false }
      flen := 0 }

/-- RESUME (R160, R227): refused while MBUSY = 1; with READY = 0 a silent no-op. -/
def execResume (s : State) : StepResult :=
  if s.status.mbusy then .next (raiseCmdError .busyCmd s)
  else if s.status.ready then .next (releaseFrame s)
  else .next s

/-- When a channel's delivery step is enabled (R158, R161, R170, R171, R172). -/
def channelEnabled (c : Channel) (s : State) : Bool :=
  match c with
  | .syncH => s.ch.h
  | .syncR => s.ch.r
  | .syncEn => s.p.en != s.en
  | .syncPact => s.status.pact != s.p.en
  | .syncLost => s.status.lostcnt != s.p.lost

/-- deliver(SYNC_H) (R158). FLEN holds 8 bits: it stores `p.hlen mod 256` (R12). -/
def deliverH (s : State) : State :=
  { s with
    flen := BitVec.ofNat 8 s.p.hlen
    cbank := s.p.hbank
    status := { s.status with fovf := s.p.hovf, ready := true, frmev := true }
    ch := { s.ch with h := false } }

/-- deliver(SYNC_R) (R161). -/
def deliverR (s : State) : State :=
  { s with
    p := { s.p with hold := false }
    ch := { s.ch with r := false } }

/-- deliver(SYNC_EN) (R170): on disable, any frame in progress is abandoned. -/
def deliverEn (s : State) : State :=
  if s.en then { s with p := { s.p with en := true } }
  else { s with p := { s.p with en := false, state := .idle, len := 0, ovf := false, timer := 0 } }

/-- deliver(SYNC_PACT) (R171). -/
def deliverPact (s : State) : State := { s with status := { s.status with pact := s.p.en } }

/-- deliver(SYNC_LOST) (R172). -/
def deliverLost (s : State) : State := { s with status := { s.status with lostcnt := s.p.lost } }

/-- A channel's delivery step. -/
def deliver (c : Channel) (s : State) : State :=
  match c with
  | .syncH => deliverH s
  | .syncR => deliverR s
  | .syncEn => deliverEn s
  | .syncPact => deliverPact s
  | .syncLost => deliverLost s

end Sys2Proof.Machine
end

