-- ==== Sys2Proof/Machine/Capture.lean ====
section
/-! DEFINITION. The producer's tick step PTICK and the recording of samples (41_capture.md R120-R136). -/

namespace Sys2Proof.Machine

/-- `Adjust(d, lvl)` (R132): bias subtracted from marks, added to spaces, then clamped. -/
def adjust (s : State) (d : Nat) (lvl : Level) : Dur :=
  match lvl with
  | .mark => sat16 ((d : Int) - biasOf s)
  | .space => sat16 ((d : Int) + biasOf s)

/-- The slot `Record` writes: p.len, or CAP - 1 once the frame is full (R130, R131). -/
def recordSlot (s : State) : Nat := if s.p.len < s.par.cap then s.p.len else s.par.cap - 1

/-- `Record(d, lvl)` (R130, R131). -/
def record (d : Nat) (lvl : Level) (s : State) : State :=
  let t := setSample s.p.bank (recordSlot s) (adjust s d lvl) s
  if s.p.len < s.par.cap then { t with p := { s.p with len := s.p.len + 1 } }
  else { t with p := { s.p with ovf := true } }

/-- `p.state <- q`. -/
def setPState (q : PState) (s : State) : State := { s with p := { s.p with state := q } }

/-- `p.timer <- e`. -/
def setTimer (e : Nat) (s : State) : State := { s with p := { s.p with timer := BitVec.ofNat 16 e } }

/-- The bank a starting frame is captured into (R155). -/
def selectBank (s : State) : State :=
  if s.p.hold then { s with p := { s.p with bank := otherBank s.p.hbank } } else s

/-- The frame-start condition is met (R126): blocked and counted in SINGLE mode while held (R136). -/
def startFrame (e : Nat) (s : State) : State :=
  if s.pcfg.bufmode = .single ∧ s.p.hold = true then loseFrame s
  else setPState .mark (record e .space (selectBank s))

/-- An accepted level change, by p.state (R126, R127, R128). -/
def changeCase (l : Level) (e : Nat) (s : State) : State :=
  match s.p.state with
  | .idle => if l = .mark ∧ s.pcfg.gap.toNat ≤ e then startFrame e s else s
  | .mark => setPState .space (record e .mark s)
  | .space => setPState .mark (record e .space s)

/-- An accepted level change in full (R125): whatever the case, the level is taken and the timer restarts. -/
def acceptChange (l : Level) (e : Nat) (s : State) : State :=
  let t := changeCase l e s
  { t with p := { t.p with lev := l, timer := 0 } }

/-- The frame-end check, before anything else in a tick (R129). -/
def frameEnd (e : Nat) (s : State) : State :=
  if s.p.state = .space ∧ s.pcfg.gap.toNat ≤ e then complete s else s

/-- The level part of a tick: debounce (R124), accepted change (R125), or no change. -/
def levelPart (l : Level) (e : Nat) (s : State) : State :=
  if l ≠ s.p.lev then
    if e < s.pcfg.noise.toNat then setTimer e s else acceptChange l e s
  else setTimer e s

/-- `PTICK(L)` (R121); the disabled tick is R122. -/
def ptick (l : Level) (s : State) : State :=
  if s.p.en then levelPart l (elapsed s) (frameEnd (elapsed s) s)
  else { s with p := { s.p with lev := l, timer := 0 } }

end Sys2Proof.Machine
end

