-- ==== Sys2Proof/Machine/RegMap.lean ====
section
/-! DEFINITION. The register map (10_state.md R20): every register and window, its offset, its write rule (44_host_bus.md
R223) and its write mask (R233). -/

namespace Sys2Proof.Machine

/-- A row of R20. -/
inductive Reg where
  | id
  | ctrl
  | status
  | irqen
  | cmd
  | flen
  | errinfo
  | cfg
  | noise
  | gap
  | bias
  | tolpct
  | tolabs
  | mdObs
  | mdExp
  | tplId
  | tplRawlen
  | tplHdrmark
  | tplHdrspace
  | tplMarkone
  | tplMarkzero
  | tplSpaceone
  | tplSpacezero
  | tplFlags
  | litLen
  | resKind
  | resValue
  | resInfo
  | resExp
  | resObs
  | lit (k : Nat)
  | frame (i : Nat)
deriving DecidableEq, Repr

/-- Which rule serves a write (R223). -/
inductive WriteRule where
  /-- R224: ignored. -/
  | readOnly
  /-- R226. -/
  | ctrl
  /-- R225. -/
  | status
  /-- R232. -/
  | irqen
  /-- R227. -/
  | cmd
  /-- R228: producer configuration. -/
  | pcfg
  /-- R229: matcher configuration. -/
  | mcfg
deriving DecidableEq, Repr

/-- Byte offset (R20). -/
def regOffset : Reg → Nat
  | .id => 0x000
  | .ctrl => 0x004
  | .status => 0x008
  | .irqen => 0x00C
  | .cmd => 0x010
  | .flen => 0x014
  | .errinfo => 0x018
  | .cfg => 0x01C
  | .noise => 0x020
  | .gap => 0x024
  | .bias => 0x028
  | .tolpct => 0x02C
  | .tolabs => 0x030
  | .mdObs => 0x034
  | .mdExp => 0x038
  | .tplId => 0x040
  | .tplRawlen => 0x044
  | .tplHdrmark => 0x048
  | .tplHdrspace => 0x04C
  | .tplMarkone => 0x050
  | .tplMarkzero => 0x054
  | .tplSpaceone => 0x058
  | .tplSpacezero => 0x05C
  | .tplFlags => 0x060
  | .litLen => 0x064
  | .resKind => 0x070
  | .resValue => 0x074
  | .resInfo => 0x078
  | .resExp => 0x07C
  | .resObs => 0x080
  | .lit k => 0x0C0 + 4 * k
  | .frame i => 0x400 + 4 * i

/-- The registers with one offset each, in the order of R20. -/
def singleRegs : List Reg :=
  [.id, .ctrl, .status, .irqen, .cmd, .flen, .errinfo, .cfg, .noise, .gap, .bias, .tolpct, .tolabs, .mdObs, .mdExp] ++
  [.tplId, .tplRawlen, .tplHdrmark, .tplHdrspace, .tplMarkone, .tplMarkzero, .tplSpaceone, .tplSpacezero, .tplFlags,
    .litLen] ++
  [.resKind, .resValue, .resInfo, .resExp, .resObs]

/-- The row an aligned address lies in, `none` where it is unmapped (R20, R64). -/
def regAt (litMax a : Nat) : Option Reg :=
  if 0x400 ≤ a ∧ a < 0x800 then some (.frame ((a - 0x400) / 4))
  else if 0x0C0 ≤ a ∧ a < 0x0C0 + 4 * litMax then some (.lit ((a - 0x0C0) / 4))
  else singleRegs.find? fun r => regOffset r == a

/-- R223. -/
def writeRule : Reg → WriteRule
  | .id => .readOnly
  | .ctrl => .ctrl
  | .status => .status
  | .irqen => .irqen
  | .cmd => .cmd
  | .flen => .readOnly
  | .errinfo => .readOnly
  | .cfg => .pcfg
  | .noise => .pcfg
  | .gap => .pcfg
  | .bias => .pcfg
  | .tolpct => .mcfg
  | .tolabs => .mcfg
  | .mdObs => .mcfg
  | .mdExp => .mcfg
  | .tplId => .mcfg
  | .tplRawlen => .mcfg
  | .tplHdrmark => .mcfg
  | .tplHdrspace => .mcfg
  | .tplMarkone => .mcfg
  | .tplMarkzero => .mcfg
  | .tplSpaceone => .mcfg
  | .tplSpacezero => .mcfg
  | .tplFlags => .mcfg
  | .litLen => .mcfg
  | .resKind => .readOnly
  | .resValue => .readOnly
  | .resInfo => .readOnly
  | .resExp => .readOnly
  | .resObs => .readOnly
  | .lit _ => .mcfg
  | .frame _ => .readOnly

/-- The write mask of a register that stores what is written to it (R233); 0 for the others. -/
def regMask : Reg → Word
  | .ctrl => 0x00000001
  | .cfg => 0x00000001
  | .irqen => 0x00000070
  | .tplFlags => 0x00000003
  | .litLen => 0x0000001F
  | .tolpct => 0x000000FF
  | .tplId => 0x000000FF
  | .tplRawlen => 0x000000FF
  | .noise => 0x0000FFFF
  | .gap => 0x0000FFFF
  | .bias => 0x0000FFFF
  | .tolabs => 0x0000FFFF
  | .mdObs => 0x0000FFFF
  | .mdExp => 0x0000FFFF
  | .tplHdrmark => 0x0000FFFF
  | .tplHdrspace => 0x0000FFFF
  | .tplMarkone => 0x0000FFFF
  | .tplMarkzero => 0x0000FFFF
  | .tplSpaceone => 0x0000FFFF
  | .tplSpacezero => 0x0000FFFF
  | .lit _ => 0x0000FFFF
  | .id => 0
  | .status => 0
  | .cmd => 0
  | .flen => 0
  | .errinfo => 0
  | .resKind => 0
  | .resValue => 0
  | .resInfo => 0
  | .resExp => 0
  | .resObs => 0
  | .frame _ => 0

end Sys2Proof.Machine
end

