-- ==== Sys2Proof/Machine/HostPort.lean ====
section
/-! DEFINITION. Register reads and the writes that are not commands (44_host_bus.md R221-R226, R228, R229, R232, R233),
and NOP (R230). A store keeps only the register's defined bits (R233): the field's width is the mask. -/

namespace Sys2Proof.Machine

/-- A FRAME read (R222). -/
def frameRead (s : State) (i : Nat) : Word :=
  if s.status.ready = true ∧ i < frameLen s then (sample s s.cbank i).setWidth 32 else 0

/-- `ReadReg` (R221): stored fields zero-extended, reserved bits 0. -/
def readReg (r : Reg) (s : State) : Word :=
  match r with
  | .id => 0x49520100
  | .ctrl => (BitVec.ofBool s.en).setWidth 32
  | .status => statusWord s.status
  | .irqen => irqenWord s.irqen
  | .cmd => 0
  | .flen => s.flen.setWidth 32
  | .errinfo => (causeCode s.errinfo).setWidth 32
  | .cfg => (bufmodeCode s.pcfg.bufmode).setWidth 32
  | .noise => s.pcfg.noise.setWidth 32
  | .gap => s.pcfg.gap.setWidth 32
  | .bias => s.pcfg.bias.setWidth 32
  | .tolpct => s.mcfg.tolpct.setWidth 32
  | .tolabs => s.mcfg.tolabs.setWidth 32
  | .mdObs => s.mcfg.mdObs.setWidth 32
  | .mdExp => s.mcfg.mdExp.setWidth 32
  | .tplId => s.mcfg.tplId.setWidth 32
  | .tplRawlen => s.mcfg.tplRawlen.setWidth 32
  | .tplHdrmark => s.mcfg.tplHdrmark.setWidth 32
  | .tplHdrspace => s.mcfg.tplHdrspace.setWidth 32
  | .tplMarkone => s.mcfg.tplMarkone.setWidth 32
  | .tplMarkzero => s.mcfg.tplMarkzero.setWidth 32
  | .tplSpaceone => s.mcfg.tplSpaceone.setWidth 32
  | .tplSpacezero => s.mcfg.tplSpacezero.setWidth 32
  | .tplFlags => tplFlagsWord s.mcfg
  | .litLen => s.mcfg.litLen.setWidth 32
  | .resKind => resKindWord s.res
  | .resValue => s.res.value
  | .resInfo => resInfoWord s.res
  | .resExp => s.res.exp.setWidth 32
  | .resObs => s.res.obs.setWidth 32
  | .lit k => (litEntry s k).setWidth 32
  | .frame i => frameRead s i

/-- STATUS write (R225). -/
def writeStatus (w : Word) (s : State) : State := { s with status := clearEvents w s.status }

/-- CTRL write (R226): a change of EN is refused while the last one is still in flight. -/
def writeCtrl (w : Word) (s : State) : State :=
  if w.getLsbD 0 ≠ s.en ∧ s.en ≠ s.status.pact then raiseCmdError .enBusy s
  else { s with en := w.getLsbD 0 }

/-- IRQEN write (R232). -/
def writeIrqen (w : Word) (s : State) : State := { s with irqen := irqenOf w }

/-- The lock of the producer configuration is open (R58, R228). -/
def pcfgOpen (s : State) : Bool := !s.en && !s.status.pact && !s.status.ready

/-- The store of R228. -/
def storePcfg (r : Reg) (w : Word) (c : ProducerCfg) : ProducerCfg :=
  match r with
  | .cfg => { c with bufmode := bufmodeOf (w.getLsbD 0) }
  | .noise => { c with noise := w.setWidth 16 }
  | .gap => { c with gap := w.setWidth 16 }
  | .bias => { c with bias := w.setWidth 16 }
  | _ => c

/-- Producer-configuration write (R228). -/
def writePcfg (r : Reg) (w : Word) (s : State) : State :=
  if pcfgOpen s then { s with pcfg := storePcfg r w s.pcfg } else raiseCmdError .cfgLocked s

/-- The store of R229. -/
def storeMcfg (r : Reg) (w : Word) (c : MatcherCfg) : MatcherCfg :=
  match r with
  | .tolpct => { c with tolpct := w.setWidth 8 }
  | .tolabs => { c with tolabs := w.setWidth 16 }
  | .mdObs => { c with mdObs := w.setWidth 16 }
  | .mdExp => { c with mdExp := w.setWidth 16 }
  | .tplId => { c with tplId := w.setWidth 8 }
  | .tplRawlen => { c with tplRawlen := w.setWidth 8 }
  | .tplHdrmark => { c with tplHdrmark := w.setWidth 16 }
  | .tplHdrspace => { c with tplHdrspace := w.setWidth 16 }
  | .tplMarkone => { c with tplMarkone := w.setWidth 16 }
  | .tplMarkzero => { c with tplMarkzero := w.setWidth 16 }
  | .tplSpaceone => { c with tplSpaceone := w.setWidth 16 }
  | .tplSpacezero => { c with tplSpacezero := w.setWidth 16 }
  | .tplFlags => { c with stop := w.getLsbD 0, hdrskip := w.getLsbD 1 }
  | .litLen => { c with litLen := w.setWidth 5 }
  | .lit k => { c with lit := c.lit.set k (w.setWidth 16) }
  | _ => c

/-- Matcher-configuration write (R229): MCFG_BUSY first, then LIT_RANGE. -/
def writeMcfg (r : Reg) (w : Word) (s : State) : State :=
  if s.status.mbusy then raiseCmdError .mcfgBusy s
  else if r = .litLen ∧ s.par.litMax < (w.setWidth 5 : BitVec 5).toNat then raiseCmdError .litRange s
  else { s with mcfg := storeMcfg r w s.mcfg }

/-- NOP (R230): nothing, even while MBUSY = 1. -/
def execNop (s : State) : StepResult := .next s

end Sys2Proof.Machine
end

