-- ==== Sys2Proof/Machine/Tolerance.lean ====
section
/-! DEFINITION. The tolerance predicate (40_tolerance.md R100), the single comparison of the block (R101), and MATCH_DUR
(R105). -/

namespace Sys2Proof.Machine

/-- `PCT(o, x)` of R100, on unbounded integers. -/
def pctHolds (pct o x : Nat) : Bool :=
  decide ((x : Int) * (100 - (pct : Int)) ≤ 100 * (o : Int)) && decide (100 * (o : Int) ≤ (x : Int) * (100 + (pct : Int)))

/-- `ABSF(o, x) = |o - x| <= A` of R100. -/
def absHolds (floor o x : Nat) : Bool := decide (((o : Int) - (x : Int)).natAbs ≤ floor)

/-- `M(o, x)` for given P and A (R100). -/
def tolMatch (pct floor o x : Nat) : Bool := pctHolds pct o x || absHolds floor o x

/-- `M(o, x)` with the current TOLPCT and TOLABS (R100, R181). -/
def tolHolds (s : State) (o x : Dur) : Bool := tolMatch (tolPct s) (tolAbs s) o.toNat x.toNat

/-- The result MATCH_DUR leaves (R105, R87): KIND 1 or 3, REASON 0, ID 0. -/
def matchDurResult (s : State) : Result where
  kind := if tolHolds s s.mcfg.mdObs s.mcfg.mdExp then .matched else .noMatch
  reason := .none
  value := 0
  index := 0
  bits := 0
  id := 0
  exp := s.mcfg.mdExp
  obs := s.mcfg.mdObs

/-- MATCH_DUR, at acceptance (R105, R227): refused while MBUSY = 1; needs no READY. -/
def execMatchDur (s : State) : StepResult :=
  if s.status.mbusy then .next (raiseCmdError .busyCmd s)
  else .next (startMatcher .matchDur s)

end Sys2Proof.Machine
end

