-- ==== Sys2Proof/Machine/Matcher.lean ====
section
/-! DEFINITION. The sequence matcher: LitMatch, Generic, WriteResult, the MATCHER completion step, and the commands
DECODE and MATCH_LIT (43_decode.md R180-R205). -/

namespace Sys2Proof.Machine

/-- NoMatch(RAW_COUNT, i, exp, FLEN) (R192, R196, R202). -/
def rawCount (s : State) (index exp : Nat) : Verdict :=
  .noMatch .rawCount index (BitVec.ofNat 16 exp) (BitVec.ofNat 16 (frameLen s))

/-- The reason for a data slot, by the parity of its index (R180). -/
def slotReason (i : Nat) : Reason := if i % 2 = 1 then .dataMark else .dataSpace

/-- The loop of `LitMatch` (R183): `left` slots to go, from k upwards. -/
def litScan (s : State) : (left k : Nat) → Verdict
  | 0, _ => .repeated
  | left + 1, k =>
    if tolHolds s (frameSlot s (k + 1)) (litEntry s k) then litScan s left (k + 1)
    else .noMatch (slotReason (k + 1)) (k + 1) (litEntry s k) (frameSlot s (k + 1))

/-- `LitMatch()` (R183, R202). -/
def litMatch (s : State) : Verdict :=
  if frameLen s ≠ litCount s + 1 then rawCount s 0 (litCount s + 1)
  else litScan s (litCount s) 0

/-- One header slot (R194, R196): from the running index c, the next index or the failure. -/
def headerSlot (s : State) (x : Dur) (why : Reason) (c : Nat) : Except Verdict Nat :=
  if x = 0 then .ok c
  else if frameLen s ≤ c then .error (rawCount s c (rawLen s))
  else if s.mcfg.hdrskip = false ∧ tolHolds s (frameSlot s c) x = false then .error (.noMatch why c x (frameSlot s c))
  else .ok (c + 1)

/-- A bit-carrying slot (R197, R198): ONE is tested before ZERO; neither is a failure that reports ZERO. -/
def bitSlot (s : State) (i : Nat) (one zero : Dur) : Except Verdict Bool :=
  if tolHolds s (frameSlot s i) one then .ok true
  else if tolHolds s (frameSlot s i) zero then .ok false
  else .error (.noMatch (slotReason i) i zero (frameSlot s i))

/-- A constant slot (R197, R198). -/
def constSlot (s : State) (i : Nat) (x : Dur) : Except Verdict Unit :=
  if tolHolds s (frameSlot s i) x then .ok ()
  else .error (.noMatch (slotReason i) i x (frameSlot s i))

/-- `v <- (2*v + bit) mod 2^32` (R203). -/
def shiftIn (v : Word) (bit : Bool) : Word := (v <<< 1) ||| (BitVec.ofBool bit).setWidth 32

/-- After a bit-carrying slot: the bit is shifted in and counted (R203, R204). -/
def takeBit (v : Word) (b : Nat) (r : Except Verdict Bool) : Except Verdict (Word × Nat) :=
  match r with
  | .ok bit => .ok (shiftIn v bit, b + 1)
  | .error e => .error e

/-- After a constant slot: value and count stay. -/
def takeConst (v : Word) (b : Nat) (r : Except Verdict Unit) : Except Verdict (Word × Nat) :=
  match r with
  | .ok () => .ok (v, b)
  | .error e => .error e

/-- One slot of the data region (R197, R198): the new value and bit count, or the failure. -/
def dataSlot (s : State) (i : Nat) (v : Word) (b : Nat) : Except Verdict (Word × Nat) :=
  if i % 2 = 1 then
    if markLength s then takeBit v b (bitSlot s i s.mcfg.tplMarkone s.mcfg.tplMarkzero)
    else takeConst v b (constSlot s i s.mcfg.tplMarkzero)
  else
    if markLength s then takeConst v b (constSlot s i s.mcfg.tplSpaceone)
    else takeBit v b (bitSlot s i s.mcfg.tplSpaceone s.mcfg.tplSpacezero)

/-- The data region (R195): `left` slots to go, from i upwards. -/
def dataScan (s : State) : (left i : Nat) → (v : Word) → (b : Nat) → Except Verdict (Word × Nat)
  | 0, _, v, b => .ok (v, b)
  | left + 1, i, v, b =>
    match dataSlot s i v b with
    | .ok (v', b') => dataScan s left (i + 1) v' b'
    | .error r => .error r

/-- The stop mark, checked after the data region (R199). -/
def stopCheck (s : State) (v : Word) (b : Nat) : Verdict :=
  if tolHolds s (frameSlot s (frameLen s - 1)) (stopMark s) then .matched v b
  else .noMatch .dataMark (frameLen s - 1) (stopMark s) (frameSlot s (frameLen s - 1))

/-- What follows the header, from slot c (R184, R195, R196, R199). -/
def genericBody (s : State) (c : Nat) : Verdict :=
  if s.mcfg.stop then
    if frameLen s - 1 < c then rawCount s c (rawLen s)
    else match dataScan s (frameLen s - 1 - c) c 0 0 with
      | .ok (v, b) => stopCheck s v b
      | .error r => r
  else match dataScan s (frameLen s - c) c 0 0 with
    | .ok (v, b) => .matched v b
    | .error r => r

/-- `Generic()` (R184): length check, header mark, header space, body. -/
def generic (s : State) : Verdict :=
  if rawLen s ≠ 0 ∧ frameLen s ≠ rawLen s then rawCount s 0 (rawLen s)
  else match headerSlot s s.mcfg.tplHdrmark .headerMark 1 with
    | .error r => r
    | .ok c =>
      match headerSlot s s.mcfg.tplHdrspace .headerSpace c with
      | .error r => r
      | .ok c' => genericBody s c'

/-- `WriteResult(r, id)` (R200): the result registers. -/
def resultOf (r : Verdict) (id : BitVec 8) : Result :=
  match r with
  | .matched v b =>
    { kind := .matched, reason := .none, value := v, index := 0, bits := BitVec.ofNat 8 b, id := id, exp := 0, obs := 0 }
  | .repeated =>
    { kind := .repeated, reason := .none, value := 0, index := 0, bits := 0, id := id, exp := 0, obs := 0 }
  | .noMatch why i x o =>
    { kind := .noMatch, reason := why, value := 0, index := BitVec.ofNat 8 i, bits := 0, id := id, exp := x, obs := o }

/-- What DECODE reports (R190): REPEAT if the literal table is in use and matches, else the generic result. -/
def decodeVerdict (s : State) : Verdict :=
  if litCount s ≠ 0 ∧ litMatch s = .repeated then .repeated else generic s

/-- The result of the operation in progress (R205). c.mop is NONE only while MBUSY = 0; a completion then would write no
result (log entry 15). -/
def matcherResult (s : State) : Result :=
  match s.mop with
  | .none => s.res
  | .matchDur => matchDurResult s
  | .decode => resultOf (decodeVerdict s) s.mcfg.tplId
  | .matchLit => resultOf (litMatch s) s.mcfg.tplId

/-- The MATCHER step (R205). -/
def matcherStep (s : State) : State :=
  { s with
    res := matcherResult s
    status := { s.status with mbusy := false, mdone := true }
    mop := .none }

/-- DECODE, at acceptance (R190, R227): BUSY_CMD, then NOT_READY. -/
def execDecode (s : State) : StepResult :=
  if s.status.mbusy then .next (raiseCmdError .busyCmd s)
  else if s.status.ready then .next (startMatcher .decode s)
  else .next (raiseCmdError .notReady s)

/-- MATCH_LIT, at acceptance (R201, R227): BUSY_CMD, then NOT_READY. -/
def execMatchLit (s : State) : StepResult :=
  if s.status.mbusy then .next (raiseCmdError .busyCmd s)
  else if s.status.ready then .next (startMatcher .matchLit s)
  else .next (raiseCmdError .notReady s)

end Sys2Proof.Machine
end

