-- ==== Sys2Proof/Machine/Dispatch.lean ====
section
/-! DEFINITION. One arm per command: the command's acceptance, a HOST step (44_host_bus.md R227). The matcher commands
complete in the MATCHER step (43_decode.md R205, Machine/Matcher.lean). -/

namespace Sys2Proof.Machine

def exec (i : Instr) (s : State) : Host.Outcome State Fault Refusal :=
  match i with
  | .nop => Sys2Proof.Machine.execNop s
  | .resume => Sys2Proof.Machine.execResume s
  | .matchDur => Sys2Proof.Machine.execMatchDur s
  | .decode => Sys2Proof.Machine.execDecode s
  | .matchLit => Sys2Proof.Machine.execMatchLit s

end Sys2Proof.Machine
end

