-- ==== Sys2Proof/Machine/Agents.lean ====
section
/-! DEFINITION. The agents' steps (00_scope.md R9): the HOST's access (44_host_bus.md R220, R223, R227), the PRODUCER's
tick, the MATCHER's completion, the channels' deliveries and RESET, and which of them comes next. -/

namespace Sys2Proof.Machine

/-- A CMD write (R227): an illegal word raises BAD_CMD before anything else is looked at (R231), a command is run. -/
def issueCommand (w : Word) (s : State) : StepResult :=
  match decodeWord w with
  | .ok i => exec i s
  | .error _ => .next (raiseCmdError .badCmd s)

/-- `WriteReg` (R223). -/
def writeReg (r : Reg) (w : Word) (s : State) : StepResult :=
  match writeRule r with
  | .readOnly => .next s
  | .ctrl => .next (writeCtrl w s)
  | .status => .next (writeStatus w s)
  | .irqen => .next (writeIrqen w s)
  | .cmd => issueCommand w s
  | .pcfg => .next (writePcfg r w s)
  | .mcfg => .next (writeMcfg r w s)

/-- One HOST step (R220): misaligned and unmapped addresses answer BusError; a read answers the register's word; a write
answers err = 0 and rdata = 0, refused or not. -/
def hostAccess (a : Access) (s : State) : StepResult :=
  if a.addr.toNat % 4 ≠ 0 then .next (raiseBusError s)
  else match regAt s.par.litMax a.addr.toNat with
    | none => .next (raiseBusError s)
    | some r => if a.write then writeReg r a.wdata (answer 0 s) else .next (answer (readReg r s) s)

/-- RESET (R290): everything at its reset value but the sample memory. The parameters and the environment's agenda are
no state of the block. -/
def resetStep (s : State) : State :=
  { State.resetOf s.par with
    mem := s.mem
    agenda := s.agenda
    draws := s.draws }

/-- One agent's step. A delivery or a completion that is not enabled does not happen: the state stays (log entry 2). -/
def runEvent (e : Event) (s : State) : StepResult :=
  match e with
  | .tick markIn => .next (ptick (levelOf markIn) s)
  | .host a => hostAccess a s
  | .matcher => .next (if s.status.mbusy then matcherStep s else s)
  | .deliver c => .next (if channelEnabled c s then deliver c s else s)
  | .reset => .next (resetStep s)

/-- Which agent moves next (R6, R9): the agenda's head, or the environment's free choice. -/
def nextEvent (s : State) : Event :=
  match s.agenda with
  | e :: _ => e
  | [] => Config.freeEvent s.draws

/-- The state once the environment's choice is made: the head is taken off the agenda, or a free event is drawn. -/
def takeEvent (s : State) : State :=
  match s.agenda with
  | _ :: rest => { s with agenda := rest }
  | [] => { s with draws := s.draws + 1 }

/-- The HOST access that issues the command word `w`: a write to CMD (R25, R80). -/
def commandAccess (w : Word) : Access := { write := true, addr := 0x010, wdata := w }

end Sys2Proof.Machine
end

