-- ==== Sys2Proof/Machine/Step.lean ====
section
/-! DEFINITION. One step of the machine: the environment chooses an agent, and that agent takes its atomic step
(00_scope.md R9). -/

namespace Sys2Proof.Machine

/-- One step. -/
def step (s : State) : Host.Outcome State Fault Refusal := runEvent (nextEvent s) (takeEvent s)

/-- `s` with the host's write of the command word `w` (its bits above `nbits` 0) as the next event: IRFB fetches no
instruction (R50, R77), a command runs when the host writes it to CMD (R25; log entry 3). -/
def State.withFetchWord (s : State) (nbits w : Nat) : State :=
  { s with agenda := .host (commandAccess (BitVec.ofNat 32 (w % 2 ^ nbits))) :: s.agenda }

end Sys2Proof.Machine
end

