-- ==== Sys2Proof/Machine/Script.lean ====
section
/-! DEFINITION. The host-script notation (30_encoding.md R92-R94): the host's statements and the producer's stimulus, the
accesses and ticks they stand for, and a host program running beside its stimulus on the block. -/

namespace Sys2Proof.Machine

/-- `MemWrite(a, 4, v)` or `MemRead(a, 4)` at a system address: the access it makes in the register space that starts at
IRFB_BASE (R67, R92), `none` outside it. -/
def accessAt (write : Bool) (a : Nat) (v : Word) : Option Access :=
  if Config.irfbBase ≤ a ∧ a < Config.irfbBase + 4096 then
    some { write := write, addr := BitVec.ofNat 12 (a - Config.irfbBase), wdata := v }
  else none

/-! ### Statements (R92, R93) -/

/-- A host statement, at an offset of the register space (R92), and the one pseudo-instruction that loops (R93). -/
inductive HostStmt where
  /-- `WR @off, v`. -/
  | write (off : BitVec 12) (v : Word)
  /-- `RD @off -> name`. -/
  | read (off : BitVec 12) (name : String)
  /-- `POLL @off, mask, value`: reads until `(t & mask) == value`. -/
  | poll (off : BitVec 12) (mask value : Word)
deriving DecidableEq, Repr

/-- The literal offset a register name stands for (R92). -/
def offsetOf (r : Reg) : BitVec 12 := BitVec.ofNat 12 (regOffset r)

/-- `CMD <mnemonic>` (R93). -/
def cmdStmt (i : Instr) : HostStmt := .write (offsetOf .cmd) (encode i)

/-- `CLR <mask>` (R93). -/
def clrStmt (mask : Word) : HostStmt := .write (offsetOf .status) mask

/-- `WAITMATCH` (R93): until MBUSY = 0. -/
def waitMatch : HostStmt := .poll (offsetOf .status) 0x8 0x0

/-- `WAITFRAME` (R93): until READY = 1. -/
def waitFrame : HostStmt := .poll (offsetOf .status) 0x1 0x1

/-- `ENABLE` (R93): its two statements. -/
def enableStmts : List HostStmt := [.write (offsetOf .ctrl) 1, .poll (offsetOf .status) 0x4 0x4]

/-- `DISABLE` (R93): its two statements. -/
def disableStmts : List HostStmt := [.write (offsetOf .ctrl) 0, .poll (offsetOf .status) 0x4 0x0]

/-- The access a statement makes, once for each of its HOST steps. -/
def stmtAccess (c : HostStmt) : Access :=
  match c with
  | .write off v => { write := true, addr := off, wdata := v }
  | .read off _ => { write := false, addr := off, wdata := 0 }
  | .poll off _ _ => { write := false, addr := off, wdata := 0 }

/-- A statement has completed with the access that answered `t`: a POLL only if the word it read has the awaited value. -/
def stmtDone (c : HostStmt) (t : Word) : Bool :=
  match c with
  | .write _ _ => true
  | .read _ _ => true
  | .poll _ mask value => t &&& mask == value

/-- The name a statement gives the word it read (R92). DESIGN CHOICE (log entry 20): the `t` of a POLL's expansion (R93) is
the loop's own and names nothing afterwards. Safe: no statement reads a name. -/
def stmtNamed (c : HostStmt) (t : Word) : List (String × Word) :=
  match c with
  | .write _ _ => []
  | .read _ name => [(name, t)]
  | .poll _ _ _ => []

/-! ### The same, as single events -/

/-- `WR <reg>, <value>`. -/
def wr (r : Reg) (v : Word) : Event := .host (stmtAccess (.write (offsetOf r) v))

/-- `RD <reg>`. -/
def rd (r : Reg) : Event := .host (stmtAccess (.read (offsetOf r) ""))

/-- `WR @off, <value>`. -/
def wrAt (off : BitVec 12) (v : Word) : Event := .host (stmtAccess (.write off v))

/-- `RD @off`. -/
def rdAt (off : BitVec 12) : Event := .host (stmtAccess (.read off ""))

/-- `CMD <mnemonic>`. -/
def cmd (i : Instr) : Event := .host (stmtAccess (cmdStmt i))

/-- `CLR <mask>`. -/
def clr (mask : Word) : Event := .host (stmtAccess (clrStmt mask))

/-- `SEG M, n` and `SEG S, n` (R94): `mark_in` at n ticks. -/
def seg (markIn : Bool) (n : Nat) : List Bool := List.replicate n markIn

/-! ### A host program beside its stimulus -/

/-- The block, the host's statements not yet completed, the stimulus column's ticks not yet taken, and what the RD
statements have named so far, the latest first. -/
structure Bench where
  block : State
  todo : List HostStmt
  stim : List Bool
  named : List (String × Word)
deriving DecidableEq, Repr

/-- The state a step answers, where it answers one. -/
def nextOf (r : StepResult) : Option State :=
  match r with
  | .next t => some t
  | .fault _ => none
  | .refused _ => none

/-- An agent's step is enabled (R9, R205; the channels' as in 42_handoff.md). -/
def eventEnabled (e : Event) (s : State) : Bool :=
  match e with
  | .tick _ => true
  | .host _ => true
  | .matcher => s.status.mbusy
  | .deliver c => channelEnabled c s
  | .reset => true

/-- After a HOST step that answered `t`, the program stays at its statement or has completed it (R93). -/
def hostTook (c : HostStmt) (rest : List HostStmt) (t : State) (b : Bench) : Bench :=
  { b with
    block := t
    todo := if stmtDone c t.resp.rdata then rest else c :: rest
    named := stmtNamed c t.resp.rdata ++ b.named }

/-- One agent's step in a program's run, `none` where it cannot be taken. The host makes the access of its next statement
(R312 (d)), the producer takes the stimulus in order (R94) and a free input once it is exhausted (R312 (c), R313), and the
matcher and the channels step while enabled. -/
def benchStep (e : Event) (b : Bench) : Option Bench :=
  match e with
  | .tick m =>
    match b.stim with
    | [] => (nextOf (runEvent e b.block)).map fun t => { b with block := t }
    | l :: rest =>
      if m = l then (nextOf (runEvent e b.block)).map fun t => { b with block := t, stim := rest } else none
  | .host a =>
    match b.todo with
    | [] => none
    | c :: rest =>
      if a = stmtAccess c then (nextOf (runEvent e b.block)).map fun t => hostTook c rest t b else none
  | .matcher => if eventEnabled e b.block then (nextOf (runEvent e b.block)).map fun t => { b with block := t } else none
  | .deliver _ => if eventEnabled e b.block then (nextOf (runEvent e b.block)).map fun t => { b with block := t } else none
  | .reset => (nextOf (runEvent e b.block)).map fun t => { b with block := t }

/-- The end of a host program's run (R313): its last statement has completed, the stimulus is exhausted, and neither the
matcher nor a channel is enabled. -/
def runEnded (b : Bench) : Bool :=
  b.todo.isEmpty && b.stim.isEmpty && !eventEnabled .matcher b.block &&
    [Channel.syncH, .syncR, .syncEn, .syncPact, .syncLost].all fun c => !channelEnabled c b.block

end Sys2Proof.Machine
end

