-- ==== Sys2Proof/Safety.lean ====
section
/-! DEFINITION. The terms claims are stated in: the invariants of 10_state.md R53-R58, what a fair run is
(70_reset_and_hazards.md R312), and the declarative reading of capture and decode that the operations are held
against (41_capture.md, 43_decode.md). -/

namespace Sys2Proof.Safety

open Sys2Proof.Machine

/-! ### The handshake (R53) -/

/-- (i): nothing handed off. -/
abbrev HsFree (s : State) : Prop := s.p.hold = false ∧ s.ch.h = false ∧ s.status.ready = false ∧ s.ch.r = false

/-- (ii): a frame in flight. -/
abbrev HsFlight (s : State) : Prop := s.p.hold = true ∧ s.ch.h = true ∧ s.status.ready = false ∧ s.ch.r = false

/-- (iii): a frame pending. -/
abbrev HsPending (s : State) : Prop := s.p.hold = true ∧ s.ch.h = false ∧ s.status.ready = true ∧ s.ch.r = false

/-- (iv): a release in flight. -/
abbrev HsRelease (s : State) : Prop := s.p.hold = true ∧ s.ch.h = false ∧ s.status.ready = false ∧ s.ch.r = true

/-- One of the four states of R53 holds. -/
abbrev Handshake (s : State) : Prop := HsFree s ∨ HsFlight s ∨ HsPending s ∨ HsRelease s

/-! ### The producer (R54, R131, R137) -/

/-- R54, with the length a frame has in SPACE. -/
abbrev ProducerOk (s : State) : Prop :=
  (s.p.state = .mark → s.p.lev = .mark) ∧
  (s.p.state = .space → s.p.lev = .space ∧ 2 ≤ s.p.len) ∧
  (s.p.state = .idle → s.p.len = 0 ∧ s.p.ovf = false) ∧
  (s.p.state ≠ .idle → 1 ≤ s.p.len ∧ s.p.len ≤ s.par.cap) ∧
  (s.p.en = false → s.p.state = .idle)

/-- The shape of the frame under capture and of the payload (R137): even length when handed off, CAP if it overflowed. -/
abbrev ShapeOk (s : State) : Prop :=
  (s.p.ovf = true → s.p.len = s.par.cap) ∧
  (s.p.ovf = false → s.p.state = .mark → s.p.len % 2 = 1) ∧
  (s.p.ovf = false → s.p.state = .space → s.p.len % 2 = 0) ∧
  (s.p.hold = true → 2 ≤ s.p.hlen ∧ s.p.hlen ≤ s.par.cap) ∧
  (s.p.hold = true → s.p.hovf = true → s.p.hlen = s.par.cap) ∧
  (s.p.hold = true → s.p.hovf = false → s.p.hlen % 2 = 0)

/-- Bank separation (R55, R153): a frame under capture while one is held exists only in DOUBLE mode, in the other bank. -/
abbrev BanksApart (s : State) : Prop :=
  s.p.hold = true → s.p.state ≠ .idle → s.pcfg.bufmode = .double ∧ s.p.bank = otherBank s.p.hbank

/-! ### The consumer (R23, R26, R46, R56, R171) -/

/-- The pending frame is the payload; with no pending frame FLEN and FOVF are 0. -/
abbrev PendingOk (s : State) : Prop :=
  (s.status.ready = true →
    s.cbank = s.p.hbank ∧ s.flen = BitVec.ofNat 8 s.p.hlen ∧ s.status.fovf = s.p.hovf) ∧
  (s.status.ready = false → s.flen = 0 ∧ s.status.fovf = false)

/-- c.mop is NONE exactly when MBUSY = 0 (R46), and a frame command runs only on a pending frame (R206). -/
abbrev MatcherOk (s : State) : Prop :=
  (s.mop = .none ↔ s.status.mbusy = false) ∧
  (s.mop = .decode → s.status.ready = true) ∧
  (s.mop = .matchLit → s.status.ready = true)

/-- `CTRL.EN = STATUS.PACT` implies `p.en = CTRL.EN` (R171, R72). -/
abbrev EnableOk (s : State) : Prop := s.en = s.status.pact → s.p.en = s.en

/-- The literal table has LIT_MAX entries, and LIT_LEN is at most LIT_MAX (R39, R40). -/
abbrev LiteralOk (s : State) : Prop := s.mcfg.lit.length = s.par.litMax ∧ s.mcfg.litLen.toNat ≤ s.par.litMax

/-! ### The sample memory (R57, R61, R131) -/

/-- Canonical form, and every entry a slot that exists. -/
abbrev MemOk (s : State) : Prop := memWf s.mem = true ∧ memInRange s.par.cap s.mem = true

/-- Something has written slot `i` of bank `b`. -/
abbrev Written (s : State) (b : Bank) (i : Nat) : Prop := (memRead? s.mem (slotKey b i)).isSome = true

/-- Every slot of the frame under capture, and of a frame in flight or pending, has been written (R57). -/
abbrev WrittenOk (s : State) : Prop :=
  (s.p.state ≠ .idle → ∀ i < s.p.len, Written s s.p.bank i) ∧
  (s.ch.h = true ∨ s.status.ready = true → ∀ i < s.p.hlen, Written s s.p.hbank i)

/-! ### The result registers (R41-R43, R88, R204) -/

/-- The shape of the result registers: unused fields are 0, REASON 6 is never produced, BITS is at most 127. -/
abbrev ResultOk (r : Result) : Prop :=
  (r.kind = .none → r.reason = .none ∧ r.value = 0 ∧ r.index = 0 ∧ r.bits = 0 ∧ r.id = 0 ∧ r.exp = 0 ∧ r.obs = 0) ∧
  (r.kind ≠ .noMatch → r.reason = .none ∧ r.index = 0) ∧
  (r.kind ≠ .matched → r.value = 0 ∧ r.bits = 0) ∧
  r.reason ≠ .trailerBit ∧
  r.bits.toNat ≤ 127

/-- Everything every step keeps. -/
structure Inv (s : State) : Prop where
  par : s.par.wf = true
  handshake : Handshake s
  producer : ProducerOk s
  shape : ShapeOk s
  banks : BanksApart s
  pending : PendingOk s
  matcher : MatcherOk s
  enable : EnableOk s
  literal : LiteralOk s
  mem : MemOk s
  written : WrittenOk s
  result : ResultOk s.res

/-! ### Capture, declaratively -/

/-- The samples recorded so far in the frame under capture. -/
def captured (s : State) : List Dur := (List.range s.p.len).map (sample s s.p.bank)

/-- The samples of the hand-off payload: bank p.hbank, slots 0 to p.hlen - 1. -/
def payload (s : State) : List Dur := (List.range s.p.hlen).map (sample s s.p.hbank)

/-- `n` ticks at one level. -/
def ticks (l : Level) : Nat → State → State
  | 0, s => s
  | n + 1, s => ticks l n (ptick l s)

/-! ### Generic decode, declaratively (R192-R204) -/

/-- The value of bits read most significant first, as an unbounded number (R203). -/
def bitsValue (bits : List Bool) : Nat := bits.foldl (fun v b => 2 * v + b.toNat) 0

/-- The first slot of the data region: slot 1 and the header slots are consumed (R193, R194). -/
def regionStart (s : State) : Nat :=
  1 + (if s.mcfg.tplHdrmark = 0 then 0 else 1) + (if s.mcfg.tplHdrspace = 0 then 0 else 1)

/-- The end of the data region: without the stop mark, if the template has one (R195, R199). -/
def regionEnd (s : State) : Nat := if s.mcfg.stop then frameLen s - 1 else frameLen s

/-- Slot `i` carries a bit: marks in the mark-length convention, spaces in the space-length one (R195). -/
def carriesBit (s : State) (i : Nat) : Bool := if markLength s then i % 2 == 1 else i % 2 == 0

/-- The ONE and ZERO values of the bit-carrying level, and the constant of the other (R197, R198). -/
def oneValue (s : State) : Dur := if markLength s then s.mcfg.tplMarkone else s.mcfg.tplSpaceone
def zeroValue (s : State) : Dur := if markLength s then s.mcfg.tplMarkzero else s.mcfg.tplSpacezero
def constValue (s : State) : Dur := if markLength s then s.mcfg.tplSpaceone else s.mcfg.tplMarkzero

/-- Slot `i` of the data region is acceptable (R197, R198). -/
def slotFits (s : State) (i : Nat) : Prop :=
  if carriesBit s i then
    tolHolds s (frameSlot s i) (oneValue s) = true ∨ tolHolds s (frameSlot s i) (zeroValue s) = true
  else tolHolds s (frameSlot s i) (constValue s) = true

/-- The bits of the slots from `i` to `i + n - 1`, in order: ONE wins where both windows hold the sample (R197). -/
def bitsFrom (s : State) (i n : Nat) : List Bool :=
  ((List.range' i n).filter (carriesBit s)).map fun j => tolHolds s (frameSlot s j) (oneValue s)

/-- A header slot: absent if the width is 0, else present and, unless HDRSKIP, in tolerance (R194, R196). -/
def headerFits (s : State) (x : Dur) (c : Nat) : Prop :=
  x = 0 ∨ (c < frameLen s ∧ (s.mcfg.hdrskip = true ∨ tolHolds s (frameSlot s c) x = true))

/-- The index of the header-space slot (R194). -/
def hdrSpaceSlot (s : State) : Nat := if s.mcfg.tplHdrmark = 0 then 1 else 2

/-- Everything the generic decode requires of a frame (R184). -/
def frameFits (s : State) : Prop :=
  (rawLen s = 0 ∨ frameLen s = rawLen s) ∧
  headerFits s s.mcfg.tplHdrmark 1 ∧
  headerFits s s.mcfg.tplHdrspace (hdrSpaceSlot s) ∧
  (s.mcfg.stop = true → regionStart s ≤ frameLen s - 1) ∧
  (∀ i, regionStart s ≤ i → i < regionEnd s → slotFits s i) ∧
  (s.mcfg.stop = true → tolHolds s (frameSlot s (frameLen s - 1)) (stopMark s) = true)

/-! ### Accesses to a register -/

/-- The register exists (R20): LIT[k] for k below LIT_MAX, FRAME[i] for i up to 255. -/
def regExists (litMax : Nat) : Reg → Bool
  | .lit k => decide (k < litMax)
  | .frame i => decide (i ≤ 255)
  | _ => true

/-- The access is to register `r`: it exists, and the address is its offset. -/
abbrev AccessTo (s : State) (a : Access) (r : Reg) : Prop :=
  a.addr.toNat = regOffset r ∧ regExists s.par.litMax r = true ∧ s.par.litMax ≤ 16

/-! ### Runs (R312, R313) -/

/-- A run under a schedule (R9): at each instant the environment chooses an agent's step, or none is taken. -/
def IsRun (sched : Nat → Option Event) (run : Nat → State) : Prop :=
  ∀ n,
    match sched n with
    | some e => runEvent e (run n) = .next (run (n + 1))
    | none => run (n + 1) = run n

/-- Weak fairness for one agent's step: it is not enabled for ever without being taken (R312 (a), (b)). -/
def WeaklyFair (e : Event) (sched : Nat → Option Event) (run : Nat → State) : Prop :=
  ∀ n, (∀ m, n ≤ m → eventEnabled e (run m) = true) → ∃ m, n ≤ m ∧ sched m = some e

/-- The run ends (R312 (c), R313): at an instant that counts as an end it stops, and no step is taken any more. -/
def Ends (ended : Nat → Prop) (sched : Nat → Option Event) : Prop := ∃ n, ended n ∧ ∀ m, n ≤ m → sched m = none

/-- The producer takes infinitely many steps, with any input. -/
def TicksForever (sched : Nat → Option Event) : Prop := ∀ n, ∃ m b, n ≤ m ∧ sched m = some (.tick b)

/-- The fairness of R312: (a) every channel, (b) the matcher, (c) the producer ticks without end unless the run ends. The
host is free (d). `ended` says at which instants the environment has nothing left to do; for a host program that is R313
(`ProgramRun`). -/
def FairRun (ended : Nat → Prop) (sched : Nat → Option Event) (run : Nat → State) : Prop :=
  IsRun sched run ∧ (∀ c, WeaklyFair (.deliver c) sched run) ∧ WeaklyFair .matcher sched run ∧
    (Ends ended sched ∨ TicksForever sched)

/-- A run of a host program beside its stimulus (R92-R94) with the fairness of R312 and the end of R313. -/
def ProgramRun (sched : Nat → Option Event) (run : Nat → Bench) : Prop :=
  (∀ n,
    match sched n with
    | some e => benchStep e (run n) = some (run (n + 1))
    | none => run (n + 1) = run n) ∧
  FairRun (fun n => runEnded (run n) = true) sched fun n => (run n).block

end Sys2Proof.Safety
end

