-- ==== Sys2Proof/Certificates/Slice0/Obligations.lean ====
section
/-! DEFINITION. The statements for the provers, each a `Prop` and none proved here. The docstrings name the rules of spec/.
`step` takes its event from the model's agenda (log entry 1); `takeEvent s` differs from `s` in the model's own fields `agenda`
and `draws` only. -/

open Sys2Proof Sys2Proof.Machine Sys2Proof.Safety

/-! ### Commands: encoding and dispatch -/

/-- The decoder and the encoder agree on every word and every command (R81). -/
def Obligations.DecodeInvertsEncode : Prop :=
  (∀ i : Instr, i.wf = true → decodeWord (encode i) = .ok i) ∧
  (∀ (w : Word) (i : Instr), decodeWord w = .ok i → encode i = w)

/-- R82: decoding is total over all 2^32 words, and an illegal word raises CmdError(BAD_CMD). -/
def Obligations.DecodeTotalByFields : Prop :=
  ∀ w : Word,
    (w.toNat / 16 ≠ 0 → decodeWord w = .error .reservedBits) ∧
    (w.toNat / 16 = 0 →
      decodeWord w =
        match w.toNat % 16 with
        | 0 => .ok .nop
        | 1 => .ok .resume
        | 2 => .ok .matchDur
        | 3 => .ok .decode
        | 4 => .ok .matchLit
        | _ => .error .reservedOpcode) ∧
    (∀ (s : State) (e : DecodeError), decodeWord w = .error e → issueCommand w s = .next (raiseCmdError .badCmd s))

/-- The words of R81, and the nearest words that are none of them. -/
def Obligations.CommandWordsReadRight : Prop :=
  decodeWord 0x00000000 = .ok .nop ∧ decodeWord 0x00000001 = .ok .resume ∧ decodeWord 0x00000002 = .ok .matchDur ∧
  decodeWord 0x00000003 = .ok .decode ∧ decodeWord 0x00000004 = .ok .matchLit ∧
  decodeWord 0x00000005 = .error .reservedOpcode ∧ decodeWord 0x0000000F = .error .reservedOpcode ∧
  decodeWord 0x00000010 = .error .reservedBits ∧ decodeWord 0x80000003 = .error .reservedBits

/-- A step runs the agent's step the environment chose (log entry 1), and the host's write of a command word to CMD runs the
decoded command after the port's answer err = 0, rdata = 0 (R220, R223, R227; log entry 6). A word placed by
`withFetchWord` runs as the very next step (log entry 3). -/
def Obligations.StepRunsDecodedCommand : Prop :=
  (∀ s : State, step s = runEvent (nextEvent s) (takeEvent s) ∧
    ∃ a d, takeEvent s = { s with agenda := a, draws := d }) ∧
  (∀ (s : State) (w : Word), runEvent (.host (commandAccess w)) s = issueCommand w (answer 0 s)) ∧
  (∀ (s : State) (w : Word) (i : Instr), nextEvent s = .host (commandAccess w) → decodeWord w = .ok i →
    step s = exec i (answer 0 (takeEvent s))) ∧
  (∀ (s : State) (nbits w : Nat) (i : Instr), decodeTableWord nbits w = some i →
    step (s.withFetchWord nbits w) = exec i (answer 0 s))

/-- R231: a reserved or illegal word written to CMD raises CmdError(BAD_CMD), whatever MBUSY is, and does nothing else. -/
def Obligations.IllegalWordRaisesBadCmd : Prop :=
  ∀ (s : State) (w : Word), (w.toNat / 16 ≠ 0 ∨ 5 ≤ w.toNat % 16) →
    issueCommand w s =
      .next
        { s with
          errinfo := if s.status.err = true then s.errinfo else .badCmd
          status := { s.status with err := true } }

/-- R230: NOP changes no state, even while MBUSY = 1. -/
def Obligations.NopChangesNothing : Prop :=
  ∀ s : State, exec .nop s = .next s ∧ issueCommand 0x00000000 s = .next s

/-- R160: RESUME outside a matcher operation releases the pending frame; with none pending it is a silent no-op; while
MBUSY = 1 it raises CmdError(BUSY_CMD). -/
def Obligations.ResumeReleasesFrame : Prop :=
  (∀ s : State, s.status.mbusy = false → s.status.ready = true →
    exec .resume s =
      .next
        { s with
          status := { s.status with ready := false, fovf := false }
          flen := 0
          ch := { s.ch with r := true } }) ∧
  (∀ s : State, s.status.mbusy = false → s.status.ready = false → exec .resume s = .next s) ∧
  (∀ s : State, s.status.mbusy = true →
    exec .resume s =
      .next
        { s with
          errinfo := if s.status.err = true then s.errinfo else .busyCmd
          status := { s.status with err := true } })

/-- R227: command acceptance. BAD_CMD comes first, NOP is never refused, then BUSY_CMD, then NOT_READY; an accepted matcher
command sets MBUSY and c.mop; a refused command leaves every register but ERR and ERRINFO unchanged. -/
def Obligations.CommandAcceptance : Prop :=
  ∀ s : State,
    let refusedWith (c : Cause) : StepResult :=
      .next
        { s with
          errinfo := if s.status.err = true then s.errinfo else c
          status := { s.status with err := true } }
    let startedAs (op : MOp) : StepResult := .next { s with status := { s.status with mbusy := true }, mop := op }
    (∀ (w : Word) (e : DecodeError), decodeWord w = .error e → issueCommand w s = refusedWith .badCmd) ∧
    (∀ (w : Word) (i : Instr), decodeWord w = .ok i → issueCommand w s = exec i s) ∧
    exec .nop s = .next s ∧
    (s.status.mbusy = true → ∀ i : Instr, i ≠ .nop → exec i s = refusedWith .busyCmd) ∧
    (s.status.mbusy = false →
      (s.status.ready = true →
        exec .resume s =
          .next
            { s with
              status := { s.status with ready := false, fovf := false }
              flen := 0
              ch := { s.ch with r := true } }) ∧
      (s.status.ready = false → exec .resume s = .next s) ∧
      exec .matchDur s = startedAs .matchDur ∧
      (s.status.ready = false → exec .decode s = refusedWith .notReady ∧ exec .matchLit s = refusedWith .notReady) ∧
      (s.status.ready = true → exec .decode s = startedAs .decode ∧ exec .matchLit s = startedAs .matchLit))

/-- R261, R225: ERRINFO changes only in a host write while ERR = 0, whose only effect is ERR, ERRINFO and the access's
answer err = 0 (a refused write), and in RESET (log entries 1 and 6). -/
def Obligations.ErrinfoHoldsFirstCause : Prop :=
  ∀ s t : State, step s = .next t → t.errinfo ≠ s.errinfo →
    nextEvent s = .reset ∨
    ((∃ a, nextEvent s = .host a ∧ a.write = true) ∧ s.status.err = false ∧
      t =
        { takeEvent s with
          errinfo := t.errinfo
          status := { s.status with err := true }
          resp := { rdata := 0, err := false } })

/-- The frame of the five commands: what each may change is what R105, R160, R190, R201, R227, R230 and R261 name; no
command stores to the sample memory. -/
def Obligations.CommandFrame : Prop :=
  ∀ (i : Instr) (s t : State), exec i s = .next t →
    t.par = s.par ∧ t.en = s.en ∧ t.irqen = s.irqen ∧ t.pcfg = s.pcfg ∧ t.mcfg = s.mcfg ∧ t.res = s.res ∧
    t.cbank = s.cbank ∧ t.p = s.p ∧ t.ch.h = s.ch.h ∧ t.resp = s.resp ∧ t.agenda = s.agenda ∧ t.draws = s.draws ∧
    t.status.pact = s.status.pact ∧ t.status.frmev = s.status.frmev ∧ t.status.mdone = s.status.mdone ∧
    t.status.lostcnt = s.status.lostcnt ∧
    (i ≠ .resume → t.status.ready = s.status.ready ∧ t.status.fovf = s.status.fovf ∧ t.flen = s.flen ∧ t.ch.r = s.ch.r) ∧
    (i = .nop ∨ i = .resume → t.mop = s.mop ∧ t.status.mbusy = s.status.mbusy) ∧
    (i = .nop ∨ (s.status.mbusy = false ∧ (i = .resume ∨ i = .matchDur ∨ s.status.ready = true)) →
      t.errinfo = s.errinfo ∧ t.status.err = s.status.err) ∧
    (∀ (b : Bank) (j : Nat), sample t b j = sample s b j)

/-! ### The tolerance predicate and MATCH_DUR -/

/-- R100: the predicate, on unbounded integers, with inclusive edges; the percentage TOLPCT is 25 after reset. -/
def Obligations.ToleranceExact : Prop :=
  (∀ (s : State) (o x : Dur),
    tolHolds s o x = true ↔
      ((100 * (o.toNat : Int) ≥ x.toNat * (100 - (s.mcfg.tolpct.toNat : Int)) ∧
        100 * (o.toNat : Int) ≤ x.toNat * (100 + (s.mcfg.tolpct.toNat : Int))) ∨
      |(o.toNat : Int) - x.toNat| ≤ (s.mcfg.tolabs.toNat : Int))) ∧
  State.reset.mcfg.tolpct = 25

/-- The properties (a)-(g) of M, and the boundary of the default window at 563, that R102 and R103 derive from R100. -/
def Obligations.ToleranceProperties : Prop :=
  -- (a)
  (∀ (s : State) (x : Dur), tolHolds s x x = true) ∧
  -- (b), (c): each test is an interval, and M is the interval from the lesser lower end to the greater upper end
  (∀ p x o : Nat, pctHolds p o x = true ↔
    (if 100 ≤ p then 0 else (x * (100 - p) + 99) / 100) ≤ o ∧ o ≤ x * (100 + p) / 100) ∧
  (∀ a x o : Nat, absHolds a o x = true ↔ x - a ≤ o ∧ o ≤ x + a) ∧
  (∀ p a x o : Nat, tolMatch p a o x = true ↔
    min (if 100 ≤ p then 0 else (x * (100 - p) + 99) / 100) (x - a) ≤ o ∧ o ≤ max (x * (100 + p) / 100) (x + a)) ∧
  (∀ p x o : Nat, 100 ≤ p → (x : Int) * (100 - (p : Int)) ≤ 0 ∧ 0 ≤ 100 * (o : Int)) ∧
  -- (d)
  (∀ p a o : Nat, (pctHolds p o 0 = true ↔ o = 0) ∧ (tolMatch p a o 0 = true ↔ o ≤ a)) ∧
  -- (e)
  (∀ o x : Nat, tolMatch 0 0 o x = true ↔ o = x) ∧
  -- (f)
  (tolMatch 25 0 1333 1000 = false ∧ tolMatch 25 0 1000 1333 = true) ∧
  -- (g)
  (∀ (s : State) (o x : Dur), x.toNat * (100 + s.mcfg.tolpct.toNat) < 2 ^ 25 ∧ 100 * o.toNat < 2 ^ 25 ∧
    ((x.toNat : Int) * (100 - (s.mcfg.tolpct.toNat : Int))).natAbs < 2 ^ 25) ∧
  -- R103
  (tolMatch 25 0 698 563 = true ∧ tolMatch 25 0 709 563 = false ∧
    ∀ o, 563 ≤ o → (tolMatch 25 0 o 563 = true ↔ o ≤ 703))

/-- R105: MATCH_DUR is refused while MBUSY = 1 and otherwise accepted, whatever READY is; its completion leaves the result
of M on MD_OBS and MD_EXP, MDONE set, MBUSY clear, and nothing else changed. -/
def Obligations.MatchDurResult : Prop :=
  (∀ s : State, s.status.mbusy = true →
    exec .matchDur s =
      .next
        { s with
          errinfo := if s.status.err = true then s.errinfo else .busyCmd
          status := { s.status with err := true } }) ∧
  (∀ s : State, s.status.mbusy = false →
    ∃ t, exec .matchDur s = .next t ∧ t = { s with status := { s.status with mbusy := true }, mop := .matchDur } ∧
      runEvent .matcher t =
        .next
          { s with
            res :=
              { kind := if tolHolds s s.mcfg.mdObs s.mcfg.mdExp = true then .matched else .noMatch
                reason := .none, value := 0, index := 0, bits := 0, id := 0
                exp := s.mcfg.mdExp, obs := s.mcfg.mdObs }
            status := { s.status with mdone := true }
            mop := .none })

/-! ### The sequence matcher -/

/-- R183: the literal check succeeds exactly when the length is LIT_LEN + 1 and every literal slot is in tolerance. -/
def Obligations.LitMatchRepeatsExactly : Prop :=
  ∀ s : State,
    litMatch s = .repeated ↔
      frameLen s = litCount s + 1 ∧ ∀ k < litCount s, tolHolds s (frameSlot s (k + 1)) (litEntry s k) = true

/-- R202: what a failing literal check reports; slots are checked in ascending order. -/
def Obligations.LitMatchFirstFailure : Prop :=
  (∀ s : State, frameLen s ≠ litCount s + 1 →
    litMatch s = .noMatch .rawCount 0 (BitVec.ofNat 16 (litCount s + 1)) (BitVec.ofNat 16 (frameLen s))) ∧
  (∀ (s : State) (k : Nat), frameLen s = litCount s + 1 → k < litCount s →
    (∀ j < k, tolHolds s (frameSlot s (j + 1)) (litEntry s j) = true) →
    tolHolds s (frameSlot s (k + 1)) (litEntry s k) = false →
    litMatch s =
      .noMatch (if (k + 1) % 2 = 1 then .dataMark else .dataSpace) (k + 1) (litEntry s k) (frameSlot s (k + 1)))

/-- R184, R192-R199, R203, R204: the generic decode succeeds exactly on the frames that fit the template, and then reports
the bits of the data region, first bit most significant; at most 127 bits. -/
def Obligations.GenericMatchesExactly : Prop :=
  ∀ (s : State) (v : Word) (b : Nat),
    (generic s = .matched v b ↔
      frameFits s ∧
      b = (bitsFrom s (regionStart s) (regionEnd s - regionStart s)).length ∧
      v = BitVec.ofNat 32 (bitsValue (bitsFrom s (regionStart s) (regionEnd s - regionStart s)))) ∧
    (generic s = .matched v b → b ≤ 127)

/-- R182, R192-R199: a NoMatch of the generic decode names the first failure in the order of R184: the length, the header
mark, the header space, room for the stop mark, the data slots in ascending order, the stop mark. RAW_COUNT is a length that
differs or the first slot the template needs and the frame lacks (R196); every other reason is a slot of the frame that is
out of tolerance. REASON 0 and 6 are never reported (R88). -/
def Obligations.GenericFailureGenuine : Prop :=
  ∀ (s : State) (why : Reason) (i : Nat) (x o : Dur), generic s = .noMatch why i x o →
    let lengthOk : Prop := rawLen s = 0 ∨ frameLen s = rawLen s
    let markOk : Prop := headerFits s s.mcfg.tplHdrmark 1
    let spaceOk : Prop := headerFits s s.mcfg.tplHdrspace (hdrSpaceSlot s)
    (why = .rawCount ∧ x = BitVec.ofNat 16 (rawLen s) ∧ o = BitVec.ofNat 16 (frameLen s) ∧
      ((i = 0 ∧ ¬ lengthOk) ∨
        (lengthOk ∧ s.mcfg.tplHdrmark ≠ 0 ∧ i = 1 ∧ frameLen s ≤ i) ∨
        (lengthOk ∧ markOk ∧ s.mcfg.tplHdrspace ≠ 0 ∧ i = hdrSpaceSlot s ∧ frameLen s ≤ i) ∨
        (lengthOk ∧ markOk ∧ spaceOk ∧ s.mcfg.stop = true ∧ i = regionStart s ∧ frameLen s ≤ i))) ∨
    (lengthOk ∧ why = .headerMark ∧ i = 1 ∧ i < frameLen s ∧ s.mcfg.tplHdrmark ≠ 0 ∧ x = s.mcfg.tplHdrmark ∧
      o = frameSlot s i ∧ s.mcfg.hdrskip = false ∧ tolHolds s o x = false) ∨
    (lengthOk ∧ markOk ∧ why = .headerSpace ∧ i = hdrSpaceSlot s ∧ i < frameLen s ∧ s.mcfg.tplHdrspace ≠ 0 ∧
      x = s.mcfg.tplHdrspace ∧ o = frameSlot s i ∧ s.mcfg.hdrskip = false ∧ tolHolds s o x = false) ∨
    (lengthOk ∧ markOk ∧ spaceOk ∧ (s.mcfg.stop = true → regionStart s ≤ frameLen s - 1) ∧ regionStart s ≤ i ∧
      i < frameLen s ∧ o = frameSlot s i ∧ tolHolds s o x = false ∧
      (∀ j, regionStart s ≤ j → j < regionEnd s → j < i → slotFits s j) ∧
      ((why = slotReason i ∧ i < regionEnd s ∧ ¬ slotFits s i ∧
          x = if carriesBit s i = true then zeroValue s else constValue s) ∨
        (why = .dataMark ∧ s.mcfg.stop = true ∧ i = frameLen s - 1 ∧ x = stopMark s)))

/-- R207 in general: a frame of the space-length shape (gap, header mark, header space, then a constant mark and a bit space
for each bit, then a stop mark), each sample in tolerance of its own value and no ZERO space in the window of ONE, decodes
to its bits. -/
def Obligations.SpaceLengthFrameDecodes : Prop :=
  ∀ (s : State) (bits : List Bool),
    s.mcfg.tplMarkone = 0 → s.mcfg.tplHdrmark ≠ 0 → s.mcfg.tplHdrspace ≠ 0 → s.mcfg.stop = true →
    frameLen s = 4 + 2 * bits.length → (rawLen s = 0 ∨ rawLen s = frameLen s) →
    tolHolds s (frameSlot s 1) s.mcfg.tplHdrmark = true → tolHolds s (frameSlot s 2) s.mcfg.tplHdrspace = true →
    (∀ k (h : k < bits.length),
      tolHolds s (frameSlot s (3 + 2 * k)) s.mcfg.tplMarkzero = true ∧
      tolHolds s (frameSlot s (4 + 2 * k)) s.mcfg.tplSpaceone = bits[k] ∧
      (bits[k] = false → tolHolds s (frameSlot s (4 + 2 * k)) s.mcfg.tplSpacezero = true)) →
    tolHolds s (frameSlot s (3 + 2 * bits.length)) s.mcfg.tplMarkzero = true →
    generic s = .matched (BitVec.ofNat 32 (bitsValue bits)) bits.length

/-- R204 and 90_conflicts.md C10: a frame of the mark-length shape (gap, header mark, header space, then a bit mark for each
bit with a constant space between two of them, no stop mark) decodes to its bits, the lone final mark counted. R199: with a
stop mark (a constant space after every bit mark, then the stop mark) it decodes to its bits where the last slot is in
tolerance of TPL_MARKONE, and else reports DATA_MARK there with TPL_MARKONE as the expected value. -/
def Obligations.MarkLengthFrameDecodes : Prop :=
  ∀ (s : State) (bits : List Bool),
    s.mcfg.tplMarkone ≠ 0 → s.mcfg.tplHdrmark ≠ 0 → s.mcfg.tplHdrspace ≠ 0 → (rawLen s = 0 ∨ rawLen s = frameLen s) →
    tolHolds s (frameSlot s 1) s.mcfg.tplHdrmark = true → tolHolds s (frameSlot s 2) s.mcfg.tplHdrspace = true →
    (∀ k (h : k < bits.length),
      tolHolds s (frameSlot s (3 + 2 * k)) s.mcfg.tplMarkone = bits[k] ∧
      (bits[k] = false → tolHolds s (frameSlot s (3 + 2 * k)) s.mcfg.tplMarkzero = true)) →
    (s.mcfg.stop = false → bits ≠ [] → frameLen s = 2 + 2 * bits.length →
      (∀ k, k + 1 < bits.length → tolHolds s (frameSlot s (4 + 2 * k)) s.mcfg.tplSpaceone = true) →
      generic s = .matched (BitVec.ofNat 32 (bitsValue bits)) bits.length) ∧
    (s.mcfg.stop = true → frameLen s = 4 + 2 * bits.length →
      (∀ k < bits.length, tolHolds s (frameSlot s (4 + 2 * k)) s.mcfg.tplSpaceone = true) →
      generic s =
        if tolHolds s (frameSlot s (3 + 2 * bits.length)) s.mcfg.tplMarkone = true then
          .matched (BitVec.ofNat 32 (bitsValue bits)) bits.length
        else
          .noMatch .dataMark (3 + 2 * bits.length) s.mcfg.tplMarkone (frameSlot s (3 + 2 * bits.length)))

/-- R200: what each record writes to the result registers, and that DECODE and MATCH_LIT write it under TPL_ID. -/
def Obligations.WriteResultTable : Prop :=
  (∀ (v : Word) (b : Nat) (id : BitVec 8), b < 256 →
    resultOf (.matched v b) id =
      { kind := .matched, reason := .none, value := v, index := 0, bits := BitVec.ofNat 8 b, id := id, exp := 0, obs := 0 } ∧
    (resultOf (.matched v b) id).bits.toNat = b) ∧
  (∀ id : BitVec 8,
    resultOf .repeated id =
      { kind := .repeated, reason := .none, value := 0, index := 0, bits := 0, id := id, exp := 0, obs := 0 }) ∧
  (∀ (why : Reason) (i : Nat) (x o : Dur) (id : BitVec 8), i < 256 →
    resultOf (.noMatch why i x o) id =
      { kind := .noMatch, reason := why, value := 0, index := BitVec.ofNat 8 i, bits := 0, id := id, exp := x, obs := o } ∧
    (resultOf (.noMatch why i x o) id).index.toNat = i) ∧
  (∀ s : State, s.mop = .decode → (matcherStep s).res = resultOf (decodeVerdict s) s.mcfg.tplId) ∧
  (∀ s : State, s.mop = .matchLit → (matcherStep s).res = resultOf (litMatch s) s.mcfg.tplId)

/-- R190, R201: DECODE and MATCH_LIT are refused while MBUSY = 1 (BUSY_CMD) and else while READY = 0 (NOT_READY); accepted,
their completion reports, under TPL_ID, REPEAT if the literal table is in use and matches and else the generic result
(DECODE), or the literal result (MATCH_LIT), which is RAW_COUNT with LIT_LEN = 0; MDONE is set, MBUSY clear, and nothing
else changes. -/
def Obligations.FrameCommandsReport : Prop :=
  ∀ s : State,
    let refusedWith (c : Cause) : StepResult :=
      .next
        { s with
          errinfo := if s.status.err = true then s.errinfo else c
          status := { s.status with err := true } }
    let reports (i : Instr) (r : Verdict) : Prop :=
      ∃ t, exec i s = .next t ∧
        runEvent .matcher t =
          .next { s with res := resultOf r s.mcfg.tplId, status := { s.status with mdone := true }, mop := .none }
    (s.status.mbusy = true → exec .decode s = refusedWith .busyCmd ∧ exec .matchLit s = refusedWith .busyCmd) ∧
    (s.status.mbusy = false → s.status.ready = false →
      exec .decode s = refusedWith .notReady ∧ exec .matchLit s = refusedWith .notReady) ∧
    (s.status.mbusy = false → s.status.ready = true →
      reports .decode (if litCount s ≠ 0 ∧ litMatch s = .repeated then .repeated else generic s) ∧
      reports .matchLit (litMatch s)) ∧
    (litCount s = 0 → 2 ≤ frameLen s → litMatch s = .noMatch .rawCount 0 1 (BitVec.ofNat 16 (frameLen s)))

/-- R205: "Result registers change only in this step and in RESET" (which agent moves is the agenda's, log entry 1). -/
def Obligations.ResultsChangeOnlyAtCompletion : Prop :=
  ∀ s t : State, step s = .next t → t.res ≠ s.res →
    (nextEvent s = .matcher ∧ s.status.mbusy = true) ∨ nextEvent s = .reset

/-- R206 (the spec derives it from R227, R229 and R56): between acceptance and completion none of a command's operands can
change, so evaluating at either end gives the same result. -/
def Obligations.OperandsStableWhileBusy : Prop :=
  ∀ s t : State, Inv s → s.status.mbusy = true → step s = .next t → nextEvent s ≠ .matcher → nextEvent s ≠ .reset →
    t.status.mbusy = true ∧ t.mop = s.mop ∧ t.mcfg = s.mcfg ∧ matcherResult t = matcherResult s

/-! ### Capture -/

/-- R122: a disabled tick only tracks the level. -/
def Obligations.DisabledTickTracksLevel : Prop :=
  ∀ (s : State) (m : Bool), s.p.en = false →
    runEvent (.tick m) s = .next { s with p := { s.p with lev := if m = true then .mark else .space, timer := 0 } }

/-- R132: bias is subtracted from marks and added to spaces, on unbounded integers, and the result clamped to 0..65535. -/
def Obligations.AdjustClampsBias : Prop :=
  ∀ (s : State) (d : Nat),
    ((adjust s d .mark).toNat : Int) = max 0 (min 65535 ((d : Int) - s.pcfg.bias.toInt)) ∧
    ((adjust s d .space).toNat : Int) = max 0 (min 65535 ((d : Int) + s.pcfg.bias.toInt))

/-- R130, R131: Record appends the adjusted sample to the frame under capture while there is room, and then overwrites the
last slot and sets p.ovf; no other entry of the sample memory changes. -/
def Obligations.RecordAppendsOrFreezes : Prop :=
  ∀ (s : State) (d : Nat) (lvl : Level), 2 ≤ s.par.cap → s.par.cap ≤ 255 → s.p.len ≤ s.par.cap →
    (s.p.len < s.par.cap →
      captured (record d lvl s) = captured s ++ [adjust s d lvl] ∧ (record d lvl s).p = { s.p with len := s.p.len + 1 }) ∧
    (s.p.len = s.par.cap →
      captured (record d lvl s) = (captured s).take (s.par.cap - 1) ++ [adjust s d lvl] ∧
      (record d lvl s).p = { s.p with ovf := true }) ∧
    (∀ k, k ≠ slotKey s.p.bank (recordSlot s) → memRead? (record d lvl s).mem k = memRead? s.mem k)

/-- R126, R155: a mark after a gap of at least GAP starts a frame in IDLE: the gap becomes slot 0, in the bank the consumer
does not hold. -/
def Obligations.FrameStartsAfterGap : Prop :=
  ∀ s : State, s.p.en = true → s.p.state = .idle → s.p.lev = .space → s.p.len = 0 → 1 ≤ s.par.cap →
    s.pcfg.noise.toNat ≤ elapsed s → s.pcfg.gap.toNat ≤ elapsed s → ¬ (s.pcfg.bufmode = .single ∧ s.p.hold = true) →
    ∃ t, runEvent (.tick true) s = .next t ∧
      t.p =
        { s.p with
          state := .mark, lev := .mark, timer := 0, len := 1
          bank := if s.p.hold = true then otherBank s.p.hbank else s.p.bank } ∧
      captured t = [adjust s (elapsed s) .space] ∧ t.ch = s.ch

/-- R136: in SINGLE mode, while a frame is held, the start is blocked: the frame is counted lost and nothing is recorded. -/
def Obligations.BlockedStartCountsLost : Prop :=
  ∀ s : State, s.p.en = true → s.p.state = .idle → s.p.lev = .space → s.pcfg.noise.toNat ≤ elapsed s →
    s.pcfg.gap.toNat ≤ elapsed s → s.pcfg.bufmode = .single → s.p.hold = true →
    runEvent (.tick true) s = .next { s with p := { s.p with lost := s.p.lost + 1, lev := .mark, timer := 0 } }

/-- R127: every other accepted change in IDLE records nothing and retimes. -/
def Obligations.IdleChangeRetimes : Prop :=
  ∀ (s : State) (m : Bool), s.p.en = true → s.p.state = .idle → levelOf m ≠ s.p.lev → s.pcfg.noise.toNat ≤ elapsed s →
    (m = false ∨ elapsed s < s.pcfg.gap.toNat) →
    runEvent (.tick m) s = .next { s with p := { s.p with lev := levelOf m, timer := 0 } }

/-- R128, R130, R131: an accepted change in MARK records the mark, and one in SPACE before GAP records the space: at the next
slot while there is room, and over the last slot, with p.ovf set, once the frame is full. -/
def Obligations.MarksAndSpacesRecorded : Prop :=
  ∀ s : State, s.p.en = true → s.pcfg.noise.toNat ≤ elapsed s →
    (s.p.state = .mark → s.p.lev = .mark →
      (s.p.len < s.par.cap →
        runEvent (.tick false) s =
          .next
            { s with
              mem := memWrite s.mem (slotKey s.p.bank s.p.len) (adjust s (elapsed s) .mark)
              p := { s.p with state := .space, lev := .space, timer := 0, len := s.p.len + 1 } }) ∧
      (s.p.len = s.par.cap →
        runEvent (.tick false) s =
          .next
            { s with
              mem := memWrite s.mem (slotKey s.p.bank (s.par.cap - 1)) (adjust s (elapsed s) .mark)
              p := { s.p with state := .space, lev := .space, timer := 0, ovf := true } })) ∧
    (s.p.state = .space → s.p.lev = .space → elapsed s < s.pcfg.gap.toNat →
      (s.p.len < s.par.cap →
        runEvent (.tick true) s =
          .next
            { s with
              mem := memWrite s.mem (slotKey s.p.bank s.p.len) (adjust s (elapsed s) .space)
              p := { s.p with state := .mark, lev := .mark, timer := 0, len := s.p.len + 1 } }) ∧
      (s.p.len = s.par.cap →
        runEvent (.tick true) s =
          .next
            { s with
              mem := memWrite s.mem (slotKey s.p.bank (s.par.cap - 1)) (adjust s (elapsed s) .space)
              p := { s.p with state := .mark, lev := .mark, timer := 0, ovf := true } }))

/-- R121, R123, R124: an enabled tick that shows no level change, or one seen with e < NOISE, which is discarded, only lets
the timer run on, in every p.state. Where the frame ends in the same tick (GAP ≤ e), `FrameEndHandsOff` and
`FrameEndWhileHeldDrops` say what the tick does. -/
def Obligations.EarlyChangeDiscarded : Prop :=
  ∀ (s : State) (m : Bool), s.p.en = true → ¬ (s.p.state = .space ∧ s.pcfg.gap.toNat ≤ elapsed s) →
    levelOf m = s.p.lev ∨ elapsed s < s.pcfg.noise.toNat →
    elapsed s = min (s.p.timer.toNat + s.par.tickUs) 65535 ∧
    runEvent (.tick m) s = .next { s with p := { s.p with timer := BitVec.ofNat 16 (elapsed s) } }

/-- R129, R150, R151: a space of at least GAP ends the frame; with nothing held it is handed off, its samples where they
were recorded, and in DOUBLE mode capture goes to the other bank. The timer runs on. The same tick may show MARK: seen before
NOISE the change is discarded (R121, R124); else in DOUBLE mode the next frame starts in it with the same elapsed time
(R126, R155), and in SINGLE mode that start is blocked by the frame just handed off (R136). -/
def Obligations.FrameEndHandsOff : Prop :=
  ∀ s : State, s.p.en = true → s.p.state = .space → s.p.lev = .space → s.pcfg.gap.toNat ≤ elapsed s → s.p.hold = false →
    let handed : Producer :=
      { s.p with len := 0, ovf := false, hold := true, hlen := s.p.len, hbank := s.p.bank, hovf := s.p.ovf }
    (∀ m : Bool, m = false ∨ elapsed s < s.pcfg.noise.toNat →
      ∃ t, runEvent (.tick m) s = .next t ∧
        t =
          { s with
            p :=
              { handed with
                state := .idle, timer := BitVec.ofNat 16 (elapsed s)
                bank := if s.pcfg.bufmode = .double then otherBank s.p.bank else s.p.bank }
            ch := { s.ch with h := true } } ∧
        payload t = captured s) ∧
    (s.pcfg.noise.toNat ≤ elapsed s → s.pcfg.bufmode = .double → 1 ≤ s.par.cap → s.par.cap ≤ 255 → s.p.len ≤ s.par.cap →
      ∃ t, runEvent (.tick true) s = .next t ∧
        t.p = { handed with state := .mark, lev := .mark, len := 1, timer := 0, bank := otherBank s.p.bank } ∧
        t.ch = { s.ch with h := true } ∧ payload t = captured s ∧ captured t = [adjust s (elapsed s) .space]) ∧
    (s.pcfg.noise.toNat ≤ elapsed s → s.pcfg.bufmode = .single →
      ∃ t, runEvent (.tick true) s = .next t ∧
        t =
          { s with
            p := { handed with state := .idle, lev := .mark, timer := 0, lost := s.p.lost + 1 }
            ch := { s.ch with h := true } } ∧
        payload t = captured s)

/-- R150, R152: with a frame held, a completed frame is dropped and counted; the held frame is not touched. The same tick may
show MARK: seen before NOISE the change is discarded (R121, R124); else in DOUBLE mode the next frame starts in the bank that
is not held (R126, R129, R155), and in SINGLE mode that start is blocked and counted too (R136). -/
def Obligations.FrameEndWhileHeldDrops : Prop :=
  ∀ s : State, s.p.en = true → s.p.state = .space → s.p.lev = .space → s.pcfg.gap.toNat ≤ elapsed s → s.p.hold = true →
    (∀ m : Bool, m = false ∨ elapsed s < s.pcfg.noise.toNat →
      runEvent (.tick m) s =
        .next
          { s with
            p :=
              { s.p with
                state := .idle, len := 0, ovf := false, timer := BitVec.ofNat 16 (elapsed s), lost := s.p.lost + 1 } }) ∧
    (s.pcfg.noise.toNat ≤ elapsed s → s.pcfg.bufmode = .double → 1 ≤ s.par.cap →
      ∃ t, runEvent (.tick true) s = .next t ∧
        t.p =
          { s.p with
            state := .mark, lev := .mark, len := 1, ovf := false, timer := 0, lost := s.p.lost + 1
            bank := otherBank s.p.hbank } ∧
        t.ch = s.ch ∧ captured t = [adjust s (elapsed s) .space] ∧
        (s.p.hlen ≤ s.par.cap → s.par.cap ≤ 255 → payload t = payload s)) ∧
    (s.pcfg.noise.toNat ≤ elapsed s → s.pcfg.bufmode = .single →
      runEvent (.tick true) s =
        .next
          { s with
            p :=
              { s.p with
                state := .idle, lev := .mark, len := 0, ovf := false, timer := 0, lost := s.p.lost + 1 + 1 } })

/-- R133, R123: a mark has no timeout: over any number of mark ticks the frame stays open and the timer counts up to 65535
and stays there. -/
def Obligations.MarkNeverTimesOut : Prop :=
  ∀ (s : State) (n : Nat), s.p.en = true → s.p.state = .mark → s.p.lev = .mark →
    ticks .mark n s = { s with p := { s.p with timer := BitVec.ofNat 16 (min (s.p.timer.toNat + n * s.par.tickUs) 65535) } }

/-- R123: a mark accepted at one tick and ended by a space seen n + 1 ticks later is recorded as
(n + 1) · TICK_US, saturated at 65535 and then adjusted. -/
def Obligations.MarkDurationMeasured : Prop :=
  ∀ (s : State) (n : Nat), s.p.en = true → s.p.state = .mark → s.p.lev = .mark → s.p.timer = 0 →
    s.pcfg.noise.toNat ≤ min ((n + 1) * s.par.tickUs) 65535 → s.p.len < s.par.cap → s.par.cap ≤ 255 →
    captured (ticks .space 1 (ticks .mark n s)) =
      captured s ++ [adjust s (min ((n + 1) * s.par.tickUs) 65535) .mark]

/-- The frame of a tick (R135, R61, R130): it changes only the producer, ch.h and at most one entry of the sample memory,
the one Record stores to. -/
def Obligations.TickFrame : Prop :=
  ∀ (s t : State) (m : Bool), runEvent (.tick m) s = .next t →
    t = { s with p := t.p, ch := { s.ch with h := t.ch.h }, mem := t.mem } ∧ t.p.en = s.p.en ∧
    (levelOf m = s.p.lev ∨ elapsed s < s.pcfg.noise.toNat ∨ s.p.en = false → t.mem = s.mem) ∧
    (∀ k, (frameEnd (elapsed s) s).p.state ≠ .idle →
      k ≠ slotKey (frameEnd (elapsed s) s).p.bank (recordSlot (frameEnd (elapsed s) s)) →
      memRead? t.mem k = memRead? s.mem k) ∧
    (∀ k, (frameEnd (elapsed s) s).p.state = .idle →
      k ≠ slotKey (selectBank (frameEnd (elapsed s) s)).p.bank (recordSlot (selectBank (frameEnd (elapsed s) s))) →
      memRead? t.mem k = memRead? s.mem k)

/-! ### Channels -/

/-- R158: deliver(SYNC_H), enabled while ch.h = 1, whatever MBUSY is. -/
def Obligations.HandoffDelivered : Prop :=
  ∀ s : State, channelEnabled .syncH s = s.ch.h ∧
    (s.ch.h = true →
      runEvent (.deliver .syncH) s =
        .next
          { s with
            flen := BitVec.ofNat 8 s.p.hlen
            cbank := s.p.hbank
            status := { s.status with fovf := s.p.hovf, ready := true, frmev := true }
            ch := { s.ch with h := false } })

/-- R161: deliver(SYNC_R), enabled while ch.r = 1, delivered whatever p.en is. -/
def Obligations.ReleaseDelivered : Prop :=
  ∀ s : State, channelEnabled .syncR s = s.ch.r ∧
    (s.ch.r = true →
      runEvent (.deliver .syncR) s =
        .next { s with p := { s.p with hold := false }, ch := { s.ch with r := false } })

/-- R170: deliver(SYNC_EN), enabled while p.en differs from CTRL.EN: enabling changes only p.en; disabling abandons the
frame in progress without counting it. -/
def Obligations.EnableDelivered : Prop :=
  ∀ s : State, (channelEnabled .syncEn s = true ↔ s.p.en ≠ s.en) ∧
    (s.p.en ≠ s.en →
      (s.en = true → runEvent (.deliver .syncEn) s = .next { s with p := { s.p with en := true } }) ∧
      (s.en = false →
        runEvent (.deliver .syncEn) s =
          .next { s with p := { s.p with en := false, state := .idle, len := 0, ovf := false, timer := 0 } }))

/-- R164, R171, R172: SYNC_PACT and SYNC_LOST are enabled while the destination differs from the source, and a delivery
copies the source's current value. A delivery that is not enabled changes nothing (the model's choice, log entry 2). -/
def Obligations.LevelChannelsCopy : Prop :=
  ∀ s : State,
    (channelEnabled .syncPact s = true ↔ s.status.pact ≠ s.p.en) ∧
    (channelEnabled .syncLost s = true ↔ s.status.lostcnt ≠ s.p.lost) ∧
    (s.status.pact ≠ s.p.en →
      runEvent (.deliver .syncPact) s = .next { s with status := { s.status with pact := s.p.en } }) ∧
    (s.status.lostcnt ≠ s.p.lost →
      runEvent (.deliver .syncLost) s = .next { s with status := { s.status with lostcnt := s.p.lost } }) ∧
    (∀ c, channelEnabled c s = false → runEvent (.deliver c) s = .next s)

/-- R158, R222, R57: once delivered, the FRAME window reads exactly the samples of the payload, every one of them written. -/
def Obligations.DeliveredFrameReadable : Prop :=
  ∀ s : State, Inv s → s.ch.h = true →
    ∃ t, runEvent (.deliver .syncH) s = .next t ∧ t.flen.toNat = s.p.hlen ∧
      (∀ i < s.p.hlen, Written s s.p.hbank i ∧ readReg (.frame i) t = (sample s s.p.hbank i).setWidth 32) ∧
      (∀ i, s.p.hlen ≤ i → readReg (.frame i) t = 0)

/-! ### Invariants and whole-machine rules -/

/-- R291 with the invariants R53-R57 (the spec's own inferences): reset meets them, for every choice of the parameters of
R7. -/
def Obligations.ResetMeetsInv : Prop :=
  (∀ c : Config, c.wf = true → Inv (State.resetOf c)) ∧ Inv State.reset

/-- Every step of every agent keeps the invariant: R53-R57, R137 and the last sentence of R171, which the spec derives from
R121-R131, R150, R155, R158, R160, R161, R170, R226 and R228. -/
def Obligations.StepKeepsInv : Prop :=
  ∀ s t : State, Inv s → step s = .next t → Inv t

/-- R56 and R71 (the spec derives them from R53 and R55): while a frame is pending, no step but RESUME and RESET changes
FLEN, FOVF, c.cbank or a sample of the frame. -/
def Obligations.PendingFrameStable : Prop :=
  ∀ s t : State, Inv s → s.status.ready = true → step s = .next t →
    (t.status.ready = true ∧ t.flen = s.flen ∧ t.status.fovf = s.status.fovf ∧ t.cbank = s.cbank ∧
      (∀ i < frameLen s, sample t t.cbank i = sample s s.cbank i) ∧
      (∀ i, readReg (.frame i) t = readReg (.frame i) s)) ∨
    (t.status.ready = false ∧ nextEvent s = .host (commandAccess (encode .resume)) ∧ s.status.mbusy = false) ∨
    nextEvent s = .reset

/-- R55 (the spec derives it from R126, R150, R155): while a frame is in flight or pending, no step writes a slot of its
bank. -/
def Obligations.HeldBankUntouched : Prop :=
  ∀ s t : State, Inv s → (s.ch.h = true ∨ s.status.ready = true) → step s = .next t →
    ∀ i < 256, memRead? t.mem (slotKey s.p.hbank i) = memRead? s.mem (slotKey s.p.hbank i)

/-- R154: the lost count changes only in a tick, by one modulo 256, and in RESET. -/
def Obligations.LostCountsByOne : Prop :=
  ∀ s t : State, Inv s → step s = .next t →
    t.p.lost = s.p.lost ∨ (t.p.lost = s.p.lost + 1 ∧ ∃ m, nextEvent s = .tick m) ∨ (t.p.lost = 0 ∧ nextEvent s = .reset)

/-- R52, R23: a STATUS bit changes only in the steps its rule names, RESET apart (the agents by the agenda, log entry 1). -/
def Obligations.FlagWriters : Prop :=
  ∀ s t : State, step s = .next t → nextEvent s ≠ .reset →
    (s.status.ready = false → t.status.ready = true → nextEvent s = .deliver .syncH ∧ s.ch.h = true) ∧
    (s.status.ready = true → t.status.ready = false → nextEvent s = .host (commandAccess (encode .resume))) ∧
    (s.status.fovf = false → t.status.fovf = true → nextEvent s = .deliver .syncH ∧ s.ch.h = true ∧ s.p.hovf = true) ∧
    (s.status.fovf = true → t.status.fovf = false →
      (nextEvent s = .host (commandAccess (encode .resume)) ∧ s.status.mbusy = false ∧ s.status.ready = true) ∨
      (nextEvent s = .deliver .syncH ∧ s.ch.h = true ∧ s.p.hovf = false)) ∧
    (t.status.pact ≠ s.status.pact → nextEvent s = .deliver .syncPact) ∧
    (t.status.lostcnt ≠ s.status.lostcnt → nextEvent s = .deliver .syncLost) ∧
    (s.status.frmev = false → t.status.frmev = true → nextEvent s = .deliver .syncH ∧ s.ch.h = true) ∧
    (s.status.mdone = false → t.status.mdone = true → nextEvent s = .matcher ∧ s.status.mbusy = true) ∧
    (s.status.mbusy = true → t.status.mbusy = false → nextEvent s = .matcher) ∧
    (s.status.mbusy = false → t.status.mbusy = true →
      ∃ i, (i = .matchDur ∨ i = .decode ∨ i = .matchLit) ∧ nextEvent s = .host (commandAccess (encode i))) ∧
    ((s.status.frmev = true ∧ t.status.frmev = false) ∨ (s.status.mdone = true ∧ t.status.mdone = false) ∨
        (s.status.err = true ∧ t.status.err = false) →
      ∃ a, nextEvent s = .host a ∧ a.write = true ∧ a.addr = 0x008) ∧
    (s.status.err = false → t.status.err = true → ∃ a, nextEvent s = .host a ∧ a.write = true)

/-- R70: a host access changes nothing of the producer domain, and a tick changes nothing of the consumer domain: the
domains act on each other only through the channels. -/
def Obligations.DomainsMeetOnlyInChannels : Prop :=
  (∀ (s t : State) (a : Access), runEvent (.host a) s = .next t → t.p = s.p ∧ t.mem = s.mem ∧ t.ch.h = s.ch.h) ∧
  (∀ (s t : State) (m : Bool), runEvent (.tick m) s = .next t →
    t.en = s.en ∧ t.status = s.status ∧ t.irqen = s.irqen ∧ t.flen = s.flen ∧ t.errinfo = s.errinfo ∧ t.pcfg = s.pcfg ∧
    t.mcfg = s.mcfg ∧ t.res = s.res ∧ t.cbank = s.cbank ∧ t.mop = s.mop ∧ t.ch.r = s.ch.r ∧ t.resp = s.resp)

/-- R15: no step stops the machine. -/
def Obligations.MachineNeverStops : Prop :=
  ∀ s : State, ∃ t, step s = .next t

/-- R312 (b), R205, R290: in a fair run, a matcher command in progress stays in progress until its completion step, which is
taken, unless a RESET abandons it first. -/
def Obligations.FairRunsCompleteMatching : Prop :=
  ∀ (ended : Nat → Prop) (sched : Nat → Option Event) (run : Nat → State), FairRun ended sched run →
    ∀ n, (run n).status.mbusy = true →
      ∃ m, n ≤ m ∧ (∀ k, n ≤ k → k ≤ m → (run k).status.mbusy = true) ∧
        ((sched m = some .matcher ∧ run (m + 1) = matcherStep (run m)) ∨ sched m = some .reset)

/-! ### The host's register port -/

/-- R63, R64: a misaligned or unmapped access answers err = 1, rdata = 0 and has no other effect; every other access answers
err = 0. With LIT_MAX = 16 the range 0x100..0x3FC is unmapped by R20 and R64's list, against R64's last sentence: the model's
reading, log entry 19. -/
def Obligations.BusErrorExactly : Prop :=
  ∀ (s t : State) (a : Access), s.par.wf = true → runEvent (.host a) s = .next t →
    let unmapped : Prop :=
      a.addr.toNat = 0x03C ∨ a.addr.toNat = 0x068 ∨ a.addr.toNat = 0x06C ∨ (0x084 ≤ a.addr.toNat ∧ a.addr.toNat ≤ 0x0BC) ∨
      (0x0C0 + 4 * s.par.litMax ≤ a.addr.toNat ∧ a.addr.toNat ≤ 0x3FC) ∨ 0x800 ≤ a.addr.toNat
    (a.addr.toNat % 4 ≠ 0 ∨ unmapped → t = { s with resp := { rdata := 0, err := true } }) ∧
    (a.addr.toNat % 4 = 0 → ¬ unmapped → t.resp.err = false)

/-- R20, R65, R221: the register map's offsets, and a read of a register answers its word and changes no state. -/
def Obligations.ReadsHaveNoEffect : Prop :=
  let map : List (Reg × Nat) :=
    [(.id, 0x000), (.ctrl, 0x004), (.status, 0x008), (.irqen, 0x00C), (.cmd, 0x010), (.flen, 0x014), (.errinfo, 0x018),
      (.cfg, 0x01C), (.noise, 0x020), (.gap, 0x024), (.bias, 0x028), (.tolpct, 0x02C), (.tolabs, 0x030)] ++
    [(.mdObs, 0x034), (.mdExp, 0x038), (.tplId, 0x040), (.tplRawlen, 0x044), (.tplHdrmark, 0x048), (.tplHdrspace, 0x04C),
      (.tplMarkone, 0x050), (.tplMarkzero, 0x054), (.tplSpaceone, 0x058), (.tplSpacezero, 0x05C)] ++
    [(.tplFlags, 0x060), (.litLen, 0x064), (.resKind, 0x070), (.resValue, 0x074), (.resInfo, 0x078), (.resExp, 0x07C),
      (.resObs, 0x080)]
  (∀ c ∈ map, regOffset c.1 = c.2) ∧ (∀ k, regOffset (.lit k) = 0x0C0 + 4 * k) ∧
  (∀ i, regOffset (.frame i) = 0x400 + 4 * i) ∧
  (∀ r : Reg, r ∈ map.map Prod.fst ∨ (∃ k, r = .lit k) ∨ ∃ i, r = .frame i) ∧
  (∀ (s : State) (a : Access) (r : Reg), a.write = false → AccessTo s a r →
    runEvent (.host a) s = .next { s with resp := { rdata := readReg r s, err := false } })

/-- R223, R233 as tables, and R221, R226, R228, R229, R232: an accepted write stores `wdata & mask`, as a read then shows,
answers err = 0, and changes no other register and nothing else of the state. -/
def Obligations.AcceptedWritesReadBack : Prop :=
  let table : List (Reg × WriteRule × Word) :=
    [(.ctrl, .ctrl, 0x1), (.irqen, .irqen, 0x70), (.cfg, .pcfg, 0x1), (.noise, .pcfg, 0xFFFF), (.gap, .pcfg, 0xFFFF),
      (.bias, .pcfg, 0xFFFF), (.tolpct, .mcfg, 0xFF), (.tolabs, .mcfg, 0xFFFF), (.mdObs, .mcfg, 0xFFFF)] ++
    [(.mdExp, .mcfg, 0xFFFF), (.tplId, .mcfg, 0xFF), (.tplRawlen, .mcfg, 0xFF), (.tplHdrmark, .mcfg, 0xFFFF),
      (.tplHdrspace, .mcfg, 0xFFFF), (.tplMarkone, .mcfg, 0xFFFF), (.tplMarkzero, .mcfg, 0xFFFF)] ++
    [(.tplSpaceone, .mcfg, 0xFFFF), (.tplSpacezero, .mcfg, 0xFFFF), (.tplFlags, .mcfg, 0x3), (.litLen, .mcfg, 0x1F)]
  (∀ c ∈ table, writeRule c.1 = c.2.1 ∧ regMask c.1 = c.2.2) ∧
  (∀ k, writeRule (.lit k) = .mcfg ∧ regMask (.lit k) = 0xFFFF) ∧
  ∀ (s : State) (a : Access) (r : Reg), a.write = true → AccessTo s a r →
    let stores (t : State) : Prop :=
      runEvent (.host a) s = .next t ∧ t.resp = { rdata := 0, err := false } ∧
        readReg r t = a.wdata &&& regMask r ∧ ∀ r' : Reg, r' ≠ r → readReg r' t = readReg r' s
    (writeRule r = .irqen → ∃ t, stores t ∧ t = { s with irqen := t.irqen, resp := t.resp }) ∧
    (writeRule r = .ctrl → (a.wdata.getLsbD 0 = s.en ∨ s.en = s.status.pact) →
      ∃ t, stores t ∧ t = { s with en := t.en, resp := t.resp }) ∧
    (writeRule r = .pcfg → s.en = false → s.status.pact = false → s.status.ready = false →
      ∃ t, stores t ∧ t = { s with pcfg := t.pcfg, resp := t.resp }) ∧
    (writeRule r = .mcfg → s.status.mbusy = false → (r = .litLen → a.wdata.toNat % 32 ≤ s.par.litMax) →
      s.mcfg.lit.length = s.par.litMax →
      ∃ t, stores t ∧ t = { s with mcfg := t.mcfg, resp := t.resp } ∧ t.mcfg.lit.length = s.mcfg.lit.length)

/-- R228, R229, R261: a configuration write is refused while its lock is closed, and an out-of-range LIT_LEN always; only
ERR and ERRINFO change, and the access answers err = 0. -/
def Obligations.LockedWritesRefused : Prop :=
  ∀ (s : State) (a : Access) (r : Reg), a.write = true → AccessTo s a r →
    let refusedWith (c : Cause) : Prop :=
      runEvent (.host a) s =
        .next
          { s with
            errinfo := if s.status.err = true then s.errinfo else c
            status := { s.status with err := true }
            resp := { rdata := 0, err := false } }
    (r = .cfg ∨ r = .noise ∨ r = .gap ∨ r = .bias →
      ¬ (s.en = false ∧ s.status.pact = false ∧ s.status.ready = false) → refusedWith .cfgLocked) ∧
    (writeRule r = .mcfg → s.status.mbusy = true → refusedWith .mcfgBusy) ∧
    (r = .litLen → s.status.mbusy = false → s.par.litMax < a.wdata.toNat % 32 → refusedWith .litRange)

/-- R226: a host write to CTRL (offset 0x004) that would change EN while the last change is in flight raises EN_BUSY; any
other is accepted. Either answers err = 0. -/
def Obligations.ControlWriteGuarded : Prop :=
  ∀ (s : State) (a : Access), a.write = true → a.addr = 0x004 →
    (a.wdata.getLsbD 0 ≠ s.en → s.en ≠ s.status.pact →
      runEvent (.host a) s =
        .next
          { s with
            errinfo := if s.status.err = true then s.errinfo else .enBusy
            status := { s.status with err := true }
            resp := { rdata := 0, err := false } }) ∧
    (a.wdata.getLsbD 0 = s.en ∨ s.en = s.status.pact →
      runEvent (.host a) s = .next { s with en := a.wdata.getLsbD 0, resp := { rdata := 0, err := false } })

/-- R225: a host write to STATUS (offset 0x008) clears each of FRMEV, MDONE, ERR whose bit is 1, and changes nothing else;
ERRINFO keeps its cause. -/
def Obligations.StatusWriteClears : Prop :=
  ∀ (s : State) (a : Access), a.write = true → a.addr = 0x008 →
    runEvent (.host a) s =
      .next
        { s with
          status :=
            { s.status with
              frmev := if a.wdata.getLsbD 4 = true then false else s.status.frmev
              mdone := if a.wdata.getLsbD 5 = true then false else s.status.mdone
              err := if a.wdata.getLsbD 6 = true then false else s.status.err }
          resp := { rdata := 0, err := false } }

/-- R224: a write to a read-only register or window is ignored: no state changes, no CmdError, and the access answers
err = 0. -/
def Obligations.ReadOnlyWritesIgnored : Prop :=
  ∀ (s : State) (a : Access) (r : Reg), a.write = true → a.addr.toNat = regOffset r →
    (r = .id ∨ r = .flen ∨ r = .errinfo ∨ r = .resKind ∨ r = .resValue ∨ r = .resInfo ∨ r = .resExp ∨ r = .resObs ∨
      ∃ i, i ≤ 255 ∧ r = .frame i) → s.par.litMax ≤ 16 →
    runEvent (.host a) s = .next { s with resp := { rdata := 0, err := false } }

/-- R270, R232: irq is the OR of the enabled events, and a host write to IRQEN (offset 0x00C), never refused, stores bits
[6:4] and moves irq at once. -/
def Obligations.InterruptOutput : Prop :=
  (∀ s : State,
    (irq s = true ↔
      (s.status.frmev = true ∧ s.irqen.frmev = true) ∨ (s.status.mdone = true ∧ s.irqen.mdone = true) ∨
        (s.status.err = true ∧ s.irqen.err = true)) ∧
    irq s = ((statusWord s.status &&& irqenWord s.irqen &&& 0x70) != 0)) ∧
  (∀ (s : State) (a : Access), a.write = true → a.addr = 0x00C →
    ∃ t, runEvent (.host a) s = .next t ∧ t = { s with irqen := t.irqen, resp := { rdata := 0, err := false } } ∧
      irqenWord t.irqen = a.wdata &&& 0x00000070 ∧ irq t = ((statusWord s.status &&& a.wdata &&& 0x70) != 0))

/-- R221: what every register reads as, as a number: the stored fields at the places of R20 and R23-R44, every other bit 0,
with the code numbers of R84, R86, R88 and R89, and the FRAME window of R222. -/
def Obligations.FlagWordsLayout : Prop :=
  ∀ s : State,
    let reads (r : Reg) (n : Nat) : Prop := (readReg r s).toNat = n
    (reads .id 0x49520100 ∧ reads .ctrl s.en.toNat ∧ reads .cmd 0 ∧ reads .flen s.flen.toNat ∧
      reads .status
        (s.status.lostcnt.toNat * 256 + s.status.err.toNat * 64 + s.status.mdone.toNat * 32 + s.status.frmev.toNat * 16 +
          s.status.mbusy.toNat * 8 + s.status.pact.toNat * 4 + s.status.fovf.toNat * 2 + s.status.ready.toNat) ∧
      reads .irqen (s.irqen.err.toNat * 64 + s.irqen.mdone.toNat * 32 + s.irqen.frmev.toNat * 16) ∧
      reads .errinfo
        (match s.errinfo with
          | .none => 0 | .badCmd => 1 | .notReady => 2 | .busyCmd => 3 | .cfgLocked => 4 | .mcfgBusy => 5 | .litRange => 6
          | .enBusy => 7)) ∧
    (reads .cfg (match s.pcfg.bufmode with | .double => 0 | .single => 1) ∧ reads .noise s.pcfg.noise.toNat ∧
      reads .gap s.pcfg.gap.toNat ∧ reads .bias s.pcfg.bias.toNat) ∧
    (reads .tolpct s.mcfg.tolpct.toNat ∧ reads .tolabs s.mcfg.tolabs.toNat ∧ reads .mdObs s.mcfg.mdObs.toNat ∧
      reads .mdExp s.mcfg.mdExp.toNat ∧ reads .tplId s.mcfg.tplId.toNat ∧ reads .tplRawlen s.mcfg.tplRawlen.toNat ∧
      reads .tplHdrmark s.mcfg.tplHdrmark.toNat ∧ reads .tplHdrspace s.mcfg.tplHdrspace.toNat ∧
      reads .tplMarkone s.mcfg.tplMarkone.toNat ∧ reads .tplMarkzero s.mcfg.tplMarkzero.toNat ∧
      reads .tplSpaceone s.mcfg.tplSpaceone.toNat ∧ reads .tplSpacezero s.mcfg.tplSpacezero.toNat ∧
      reads .tplFlags (s.mcfg.hdrskip.toNat * 2 + s.mcfg.stop.toNat) ∧ reads .litLen s.mcfg.litLen.toNat ∧
      ∀ k, reads (.lit k) (s.mcfg.lit.getD k 0).toNat) ∧
    (reads .resKind
        ((match s.res.reason with
          | .none => 0 | .rawCount => 1 | .headerMark => 2 | .headerSpace => 3 | .dataMark => 4 | .dataSpace => 5
          | .trailerBit => 6) * 16 +
        match s.res.kind with
          | .none => 0 | .matched => 1 | .repeated => 2 | .noMatch => 3) ∧
      reads .resValue s.res.value.toNat ∧
      reads .resInfo (s.res.id.toNat * 65536 + s.res.bits.toNat * 256 + s.res.index.toNat) ∧
      reads .resExp s.res.exp.toNat ∧ reads .resObs s.res.obs.toNat) ∧
    ∀ i, reads (.frame i) (if s.status.ready = true ∧ i < s.flen.toNat then (sample s s.cbank i).toNat else 0)

/-- R290, R291: RESET puts every register, field, internal variable and channel at its reset value, and keeps the sample
memory. That it keeps the parameters (`t.par = s.par`) is the model's choice: log entries 4 and 13. -/
def Obligations.ResetRestoresEverything : Prop :=
  ∀ s : State,
    ∃ t, runEvent .reset s = .next t ∧ t.mem = s.mem ∧ t.par = s.par ∧
      t.en = false ∧
      t.status =
        { ready := false, fovf := false, pact := false, mbusy := false, frmev := false, mdone := false, err := false,
          lostcnt := 0 } ∧
      irqenWord t.irqen = 0 ∧ t.flen = 0 ∧ t.errinfo = .none ∧
      t.pcfg = { bufmode := .double, noise := 50, gap := 10000, bias := 0 } ∧
      (∀ r, writeRule r = .mcfg → readReg r t = if r = .tolpct then 25 else 0) ∧
      t.mcfg.lit.length = s.par.litMax ∧
      t.res = { kind := .none, reason := .none, value := 0, index := 0, bits := 0, id := 0, exp := 0, obs := 0 } ∧
      t.cbank = 0 ∧ t.mop = .none ∧
      t.p =
        { en := false, state := .idle, lev := .space, timer := 0, len := 0, ovf := false, bank := 0, hold := false,
          hlen := 0, hbank := 0, hovf := false, lost := 0 } ∧
      t.ch = { h := false, r := false } ∧ readReg .id t = 0x49520100 ∧ irq t = false
end

