-- ==== Sys2Proof/Laws/State.lean ====
section
/-! SUPPORT. What each named update of the state does to every field, once, so that no proof unfolds a record update.
Each theorem is one equation per field, all true by unfolding the update. -/

namespace Sys2Proof.Machine

@[simp] theorem setSample_fields (b : Bank) (i : Nat) (v : Dur) (s : State) :
    (setSample b i v s).par = s.par ∧ (setSample b i v s).en = s.en ∧ (setSample b i v s).status = s.status ∧
    (setSample b i v s).irqen = s.irqen ∧ (setSample b i v s).flen = s.flen ∧
    (setSample b i v s).errinfo = s.errinfo ∧ (setSample b i v s).pcfg = s.pcfg ∧
    (setSample b i v s).mcfg = s.mcfg ∧ (setSample b i v s).res = s.res ∧ (setSample b i v s).cbank = s.cbank ∧
    (setSample b i v s).mop = s.mop ∧ (setSample b i v s).p = s.p ∧ (setSample b i v s).ch = s.ch ∧
    (setSample b i v s).mem = memWrite s.mem (slotKey b i) v ∧ (setSample b i v s).resp = s.resp ∧
    (setSample b i v s).agenda = s.agenda ∧ (setSample b i v s).draws = s.draws := by
  simp [setSample]

@[simp] theorem raiseCmdError_fields (c : Cause) (s : State) :
    (raiseCmdError c s).par = s.par ∧ (raiseCmdError c s).en = s.en ∧
    (raiseCmdError c s).status = { s.status with err := true } ∧ (raiseCmdError c s).irqen = s.irqen ∧
    (raiseCmdError c s).flen = s.flen ∧ (raiseCmdError c s).errinfo = (if s.status.err then s.errinfo else c) ∧
    (raiseCmdError c s).pcfg = s.pcfg ∧ (raiseCmdError c s).mcfg = s.mcfg ∧ (raiseCmdError c s).res = s.res ∧
    (raiseCmdError c s).cbank = s.cbank ∧ (raiseCmdError c s).mop = s.mop ∧ (raiseCmdError c s).p = s.p ∧
    (raiseCmdError c s).ch = s.ch ∧ (raiseCmdError c s).mem = s.mem ∧ (raiseCmdError c s).resp = s.resp ∧
    (raiseCmdError c s).agenda = s.agenda ∧ (raiseCmdError c s).draws = s.draws := by
  simp [raiseCmdError]

@[simp] theorem answer_fields (w : Word) (s : State) :
    (answer w s).par = s.par ∧ (answer w s).en = s.en ∧ (answer w s).status = s.status ∧
    (answer w s).irqen = s.irqen ∧ (answer w s).flen = s.flen ∧ (answer w s).errinfo = s.errinfo ∧
    (answer w s).pcfg = s.pcfg ∧ (answer w s).mcfg = s.mcfg ∧ (answer w s).res = s.res ∧
    (answer w s).cbank = s.cbank ∧ (answer w s).mop = s.mop ∧ (answer w s).p = s.p ∧ (answer w s).ch = s.ch ∧
    (answer w s).mem = s.mem ∧ (answer w s).resp = { rdata := w, err := false } ∧ (answer w s).agenda = s.agenda ∧
    (answer w s).draws = s.draws := by
  simp [answer]

@[simp] theorem raiseBusError_fields (s : State) :
    (raiseBusError s).par = s.par ∧ (raiseBusError s).en = s.en ∧ (raiseBusError s).status = s.status ∧
    (raiseBusError s).irqen = s.irqen ∧ (raiseBusError s).flen = s.flen ∧ (raiseBusError s).errinfo = s.errinfo ∧
    (raiseBusError s).pcfg = s.pcfg ∧ (raiseBusError s).mcfg = s.mcfg ∧ (raiseBusError s).res = s.res ∧
    (raiseBusError s).cbank = s.cbank ∧ (raiseBusError s).mop = s.mop ∧ (raiseBusError s).p = s.p ∧
    (raiseBusError s).ch = s.ch ∧ (raiseBusError s).mem = s.mem ∧
    (raiseBusError s).resp = { rdata := 0, err := true } ∧ (raiseBusError s).agenda = s.agenda ∧
    (raiseBusError s).draws = s.draws := by
  simp [raiseBusError]

@[simp] theorem startMatcher_fields (op : MOp) (s : State) :
    (startMatcher op s).par = s.par ∧ (startMatcher op s).en = s.en ∧
    (startMatcher op s).status = { s.status with mbusy := true } ∧ (startMatcher op s).irqen = s.irqen ∧
    (startMatcher op s).flen = s.flen ∧ (startMatcher op s).errinfo = s.errinfo ∧
    (startMatcher op s).pcfg = s.pcfg ∧ (startMatcher op s).mcfg = s.mcfg ∧ (startMatcher op s).res = s.res ∧
    (startMatcher op s).cbank = s.cbank ∧ (startMatcher op s).mop = op ∧ (startMatcher op s).p = s.p ∧
    (startMatcher op s).ch = s.ch ∧ (startMatcher op s).mem = s.mem ∧ (startMatcher op s).resp = s.resp ∧
    (startMatcher op s).agenda = s.agenda ∧ (startMatcher op s).draws = s.draws := by
  simp [startMatcher]

@[simp] theorem sendH_fields (s : State) :
    (sendH s).par = s.par ∧ (sendH s).en = s.en ∧ (sendH s).status = s.status ∧ (sendH s).irqen = s.irqen ∧
    (sendH s).flen = s.flen ∧ (sendH s).errinfo = s.errinfo ∧ (sendH s).pcfg = s.pcfg ∧ (sendH s).mcfg = s.mcfg ∧
    (sendH s).res = s.res ∧ (sendH s).cbank = s.cbank ∧ (sendH s).mop = s.mop ∧ (sendH s).p = s.p ∧
    (sendH s).ch = { s.ch with h := true } ∧ (sendH s).mem = s.mem ∧ (sendH s).resp = s.resp ∧
    (sendH s).agenda = s.agenda ∧ (sendH s).draws = s.draws := by
  simp [sendH]

@[simp] theorem sendR_fields (s : State) :
    (sendR s).par = s.par ∧ (sendR s).en = s.en ∧ (sendR s).status = s.status ∧ (sendR s).irqen = s.irqen ∧
    (sendR s).flen = s.flen ∧ (sendR s).errinfo = s.errinfo ∧ (sendR s).pcfg = s.pcfg ∧ (sendR s).mcfg = s.mcfg ∧
    (sendR s).res = s.res ∧ (sendR s).cbank = s.cbank ∧ (sendR s).mop = s.mop ∧ (sendR s).p = s.p ∧
    (sendR s).ch = { s.ch with r := true } ∧ (sendR s).mem = s.mem ∧ (sendR s).resp = s.resp ∧
    (sendR s).agenda = s.agenda ∧ (sendR s).draws = s.draws := by
  simp [sendR]

@[simp] theorem loseFrame_fields (s : State) :
    (loseFrame s).par = s.par ∧ (loseFrame s).en = s.en ∧ (loseFrame s).status = s.status ∧
    (loseFrame s).irqen = s.irqen ∧ (loseFrame s).flen = s.flen ∧ (loseFrame s).errinfo = s.errinfo ∧
    (loseFrame s).pcfg = s.pcfg ∧ (loseFrame s).mcfg = s.mcfg ∧ (loseFrame s).res = s.res ∧
    (loseFrame s).cbank = s.cbank ∧ (loseFrame s).mop = s.mop ∧
    (loseFrame s).p = { s.p with lost := s.p.lost + 1 } ∧ (loseFrame s).ch = s.ch ∧ (loseFrame s).mem = s.mem ∧
    (loseFrame s).resp = s.resp ∧ (loseFrame s).agenda = s.agenda ∧ (loseFrame s).draws = s.draws := by
  simp [loseFrame]

@[simp] theorem clearCapture_fields (s : State) :
    (clearCapture s).par = s.par ∧ (clearCapture s).en = s.en ∧ (clearCapture s).status = s.status ∧
    (clearCapture s).irqen = s.irqen ∧ (clearCapture s).flen = s.flen ∧ (clearCapture s).errinfo = s.errinfo ∧
    (clearCapture s).pcfg = s.pcfg ∧ (clearCapture s).mcfg = s.mcfg ∧ (clearCapture s).res = s.res ∧
    (clearCapture s).cbank = s.cbank ∧ (clearCapture s).mop = s.mop ∧
    (clearCapture s).p = { s.p with len := 0, ovf := false, state := .idle } ∧ (clearCapture s).ch = s.ch ∧
    (clearCapture s).mem = s.mem ∧ (clearCapture s).resp = s.resp ∧ (clearCapture s).agenda = s.agenda ∧
    (clearCapture s).draws = s.draws := by
  simp [clearCapture]

@[simp] theorem handOff_fields (s : State) :
    (handOff s).par = s.par ∧ (handOff s).en = s.en ∧ (handOff s).status = s.status ∧ (handOff s).irqen = s.irqen ∧
    (handOff s).flen = s.flen ∧ (handOff s).errinfo = s.errinfo ∧ (handOff s).pcfg = s.pcfg ∧
    (handOff s).mcfg = s.mcfg ∧ (handOff s).res = s.res ∧ (handOff s).cbank = s.cbank ∧ (handOff s).mop = s.mop ∧
    (handOff s).p = { s.p with hlen := s.p.len, hbank := s.p.bank, hovf := s.p.ovf, hold := true, bank := if s.pcfg.bufmode = .double then otherBank s.p.bank else s.p.bank } ∧
    (handOff s).ch = { s.ch with h := true } ∧ (handOff s).mem = s.mem ∧ (handOff s).resp = s.resp ∧
    (handOff s).agenda = s.agenda ∧ (handOff s).draws = s.draws := by
  simp [handOff, sendH]

@[simp] theorem releaseFrame_fields (s : State) :
    (releaseFrame s).par = s.par ∧ (releaseFrame s).en = s.en ∧
    (releaseFrame s).status = { s.status with ready := false, fovf := false } ∧ (releaseFrame s).irqen = s.irqen ∧
    (releaseFrame s).flen = 0 ∧ (releaseFrame s).errinfo = s.errinfo ∧ (releaseFrame s).pcfg = s.pcfg ∧
    (releaseFrame s).mcfg = s.mcfg ∧ (releaseFrame s).res = s.res ∧ (releaseFrame s).cbank = s.cbank ∧
    (releaseFrame s).mop = s.mop ∧ (releaseFrame s).p = s.p ∧ (releaseFrame s).ch = { s.ch with r := true } ∧
    (releaseFrame s).mem = s.mem ∧ (releaseFrame s).resp = s.resp ∧ (releaseFrame s).agenda = s.agenda ∧
    (releaseFrame s).draws = s.draws := by
  simp [releaseFrame, sendR]

@[simp] theorem setPState_fields (q : PState) (s : State) :
    (setPState q s).par = s.par ∧ (setPState q s).en = s.en ∧ (setPState q s).status = s.status ∧
    (setPState q s).irqen = s.irqen ∧ (setPState q s).flen = s.flen ∧ (setPState q s).errinfo = s.errinfo ∧
    (setPState q s).pcfg = s.pcfg ∧ (setPState q s).mcfg = s.mcfg ∧ (setPState q s).res = s.res ∧
    (setPState q s).cbank = s.cbank ∧ (setPState q s).mop = s.mop ∧ (setPState q s).p = { s.p with state := q } ∧
    (setPState q s).ch = s.ch ∧ (setPState q s).mem = s.mem ∧ (setPState q s).resp = s.resp ∧
    (setPState q s).agenda = s.agenda ∧ (setPState q s).draws = s.draws := by
  simp [setPState]

@[simp] theorem setTimer_fields (e : Nat) (s : State) :
    (setTimer e s).par = s.par ∧ (setTimer e s).en = s.en ∧ (setTimer e s).status = s.status ∧
    (setTimer e s).irqen = s.irqen ∧ (setTimer e s).flen = s.flen ∧ (setTimer e s).errinfo = s.errinfo ∧
    (setTimer e s).pcfg = s.pcfg ∧ (setTimer e s).mcfg = s.mcfg ∧ (setTimer e s).res = s.res ∧
    (setTimer e s).cbank = s.cbank ∧ (setTimer e s).mop = s.mop ∧
    (setTimer e s).p = { s.p with timer := BitVec.ofNat 16 e } ∧ (setTimer e s).ch = s.ch ∧
    (setTimer e s).mem = s.mem ∧ (setTimer e s).resp = s.resp ∧ (setTimer e s).agenda = s.agenda ∧
    (setTimer e s).draws = s.draws := by
  simp [setTimer]

@[simp] theorem deliverH_fields (s : State) :
    (deliverH s).par = s.par ∧ (deliverH s).en = s.en ∧
    (deliverH s).status = { s.status with fovf := s.p.hovf, ready := true, frmev := true } ∧
    (deliverH s).irqen = s.irqen ∧ (deliverH s).flen = BitVec.ofNat 8 s.p.hlen ∧ (deliverH s).errinfo = s.errinfo ∧
    (deliverH s).pcfg = s.pcfg ∧ (deliverH s).mcfg = s.mcfg ∧ (deliverH s).res = s.res ∧
    (deliverH s).cbank = s.p.hbank ∧ (deliverH s).mop = s.mop ∧ (deliverH s).p = s.p ∧
    (deliverH s).ch = { s.ch with h := false } ∧ (deliverH s).mem = s.mem ∧ (deliverH s).resp = s.resp ∧
    (deliverH s).agenda = s.agenda ∧ (deliverH s).draws = s.draws := by
  simp [deliverH]

@[simp] theorem deliverR_fields (s : State) :
    (deliverR s).par = s.par ∧ (deliverR s).en = s.en ∧ (deliverR s).status = s.status ∧
    (deliverR s).irqen = s.irqen ∧ (deliverR s).flen = s.flen ∧ (deliverR s).errinfo = s.errinfo ∧
    (deliverR s).pcfg = s.pcfg ∧ (deliverR s).mcfg = s.mcfg ∧ (deliverR s).res = s.res ∧
    (deliverR s).cbank = s.cbank ∧ (deliverR s).mop = s.mop ∧ (deliverR s).p = { s.p with hold := false } ∧
    (deliverR s).ch = { s.ch with r := false } ∧ (deliverR s).mem = s.mem ∧ (deliverR s).resp = s.resp ∧
    (deliverR s).agenda = s.agenda ∧ (deliverR s).draws = s.draws := by
  simp [deliverR]

@[simp] theorem deliverPact_fields (s : State) :
    (deliverPact s).par = s.par ∧ (deliverPact s).en = s.en ∧
    (deliverPact s).status = { s.status with pact := s.p.en } ∧ (deliverPact s).irqen = s.irqen ∧
    (deliverPact s).flen = s.flen ∧ (deliverPact s).errinfo = s.errinfo ∧ (deliverPact s).pcfg = s.pcfg ∧
    (deliverPact s).mcfg = s.mcfg ∧ (deliverPact s).res = s.res ∧ (deliverPact s).cbank = s.cbank ∧
    (deliverPact s).mop = s.mop ∧ (deliverPact s).p = s.p ∧ (deliverPact s).ch = s.ch ∧
    (deliverPact s).mem = s.mem ∧ (deliverPact s).resp = s.resp ∧ (deliverPact s).agenda = s.agenda ∧
    (deliverPact s).draws = s.draws := by
  simp [deliverPact]

@[simp] theorem deliverLost_fields (s : State) :
    (deliverLost s).par = s.par ∧ (deliverLost s).en = s.en ∧
    (deliverLost s).status = { s.status with lostcnt := s.p.lost } ∧ (deliverLost s).irqen = s.irqen ∧
    (deliverLost s).flen = s.flen ∧ (deliverLost s).errinfo = s.errinfo ∧ (deliverLost s).pcfg = s.pcfg ∧
    (deliverLost s).mcfg = s.mcfg ∧ (deliverLost s).res = s.res ∧ (deliverLost s).cbank = s.cbank ∧
    (deliverLost s).mop = s.mop ∧ (deliverLost s).p = s.p ∧ (deliverLost s).ch = s.ch ∧
    (deliverLost s).mem = s.mem ∧ (deliverLost s).resp = s.resp ∧ (deliverLost s).agenda = s.agenda ∧
    (deliverLost s).draws = s.draws := by
  simp [deliverLost]

@[simp] theorem matcherStep_fields (s : State) :
    (matcherStep s).par = s.par ∧ (matcherStep s).en = s.en ∧
    (matcherStep s).status = { s.status with mbusy := false, mdone := true } ∧ (matcherStep s).irqen = s.irqen ∧
    (matcherStep s).flen = s.flen ∧ (matcherStep s).errinfo = s.errinfo ∧ (matcherStep s).pcfg = s.pcfg ∧
    (matcherStep s).mcfg = s.mcfg ∧ (matcherStep s).res = matcherResult s ∧ (matcherStep s).cbank = s.cbank ∧
    (matcherStep s).mop = .none ∧ (matcherStep s).p = s.p ∧ (matcherStep s).ch = s.ch ∧
    (matcherStep s).mem = s.mem ∧ (matcherStep s).resp = s.resp ∧ (matcherStep s).agenda = s.agenda ∧
    (matcherStep s).draws = s.draws := by
  simp [matcherStep]

@[simp] theorem writeStatus_fields (w : Word) (s : State) :
    (writeStatus w s).par = s.par ∧ (writeStatus w s).en = s.en ∧
    (writeStatus w s).status = clearEvents w s.status ∧ (writeStatus w s).irqen = s.irqen ∧
    (writeStatus w s).flen = s.flen ∧ (writeStatus w s).errinfo = s.errinfo ∧ (writeStatus w s).pcfg = s.pcfg ∧
    (writeStatus w s).mcfg = s.mcfg ∧ (writeStatus w s).res = s.res ∧ (writeStatus w s).cbank = s.cbank ∧
    (writeStatus w s).mop = s.mop ∧ (writeStatus w s).p = s.p ∧ (writeStatus w s).ch = s.ch ∧
    (writeStatus w s).mem = s.mem ∧ (writeStatus w s).resp = s.resp ∧ (writeStatus w s).agenda = s.agenda ∧
    (writeStatus w s).draws = s.draws := by
  simp [writeStatus]

@[simp] theorem writeIrqen_fields (w : Word) (s : State) :
    (writeIrqen w s).par = s.par ∧ (writeIrqen w s).en = s.en ∧ (writeIrqen w s).status = s.status ∧
    (writeIrqen w s).irqen = irqenOf w ∧ (writeIrqen w s).flen = s.flen ∧ (writeIrqen w s).errinfo = s.errinfo ∧
    (writeIrqen w s).pcfg = s.pcfg ∧ (writeIrqen w s).mcfg = s.mcfg ∧ (writeIrqen w s).res = s.res ∧
    (writeIrqen w s).cbank = s.cbank ∧ (writeIrqen w s).mop = s.mop ∧ (writeIrqen w s).p = s.p ∧
    (writeIrqen w s).ch = s.ch ∧ (writeIrqen w s).mem = s.mem ∧ (writeIrqen w s).resp = s.resp ∧
    (writeIrqen w s).agenda = s.agenda ∧ (writeIrqen w s).draws = s.draws := by
  simp [writeIrqen]

@[simp] theorem selectBank_fields (s : State) :
    (selectBank s).par = s.par ∧ (selectBank s).en = s.en ∧ (selectBank s).status = s.status ∧
    (selectBank s).irqen = s.irqen ∧ (selectBank s).flen = s.flen ∧ (selectBank s).errinfo = s.errinfo ∧
    (selectBank s).pcfg = s.pcfg ∧ (selectBank s).mcfg = s.mcfg ∧ (selectBank s).res = s.res ∧
    (selectBank s).cbank = s.cbank ∧ (selectBank s).mop = s.mop ∧ (selectBank s).ch = s.ch ∧
    (selectBank s).mem = s.mem ∧ (selectBank s).resp = s.resp ∧ (selectBank s).agenda = s.agenda ∧
    (selectBank s).draws = s.draws := by
  unfold selectBank; split <;> simp

@[simp] theorem deliverEn_fields (s : State) :
    (deliverEn s).par = s.par ∧ (deliverEn s).en = s.en ∧ (deliverEn s).status = s.status ∧
    (deliverEn s).irqen = s.irqen ∧ (deliverEn s).flen = s.flen ∧ (deliverEn s).errinfo = s.errinfo ∧
    (deliverEn s).pcfg = s.pcfg ∧ (deliverEn s).mcfg = s.mcfg ∧ (deliverEn s).res = s.res ∧
    (deliverEn s).cbank = s.cbank ∧ (deliverEn s).mop = s.mop ∧ (deliverEn s).ch = s.ch ∧
    (deliverEn s).mem = s.mem ∧ (deliverEn s).resp = s.resp ∧ (deliverEn s).agenda = s.agenda ∧
    (deliverEn s).draws = s.draws := by
  unfold deliverEn; split <;> simp

@[simp] theorem record_fields (d : Nat) (lvl : Level) (s : State) :
    (record d lvl s).par = s.par ∧ (record d lvl s).en = s.en ∧ (record d lvl s).status = s.status ∧
    (record d lvl s).irqen = s.irqen ∧ (record d lvl s).flen = s.flen ∧ (record d lvl s).errinfo = s.errinfo ∧
    (record d lvl s).pcfg = s.pcfg ∧ (record d lvl s).mcfg = s.mcfg ∧ (record d lvl s).res = s.res ∧
    (record d lvl s).cbank = s.cbank ∧ (record d lvl s).mop = s.mop ∧ (record d lvl s).ch = s.ch ∧
    (record d lvl s).resp = s.resp ∧ (record d lvl s).agenda = s.agenda ∧ (record d lvl s).draws = s.draws := by
  unfold record; split <;> simp

@[simp] theorem takeEvent_fields (s : State) :
    (takeEvent s).par = s.par ∧ (takeEvent s).en = s.en ∧ (takeEvent s).status = s.status ∧
    (takeEvent s).irqen = s.irqen ∧ (takeEvent s).flen = s.flen ∧ (takeEvent s).errinfo = s.errinfo ∧
    (takeEvent s).pcfg = s.pcfg ∧ (takeEvent s).mcfg = s.mcfg ∧ (takeEvent s).res = s.res ∧
    (takeEvent s).cbank = s.cbank ∧ (takeEvent s).mop = s.mop ∧ (takeEvent s).p = s.p ∧ (takeEvent s).ch = s.ch ∧
    (takeEvent s).mem = s.mem ∧ (takeEvent s).resp = s.resp := by
  unfold takeEvent; split <;> simp

end Sys2Proof.Machine
end

