-- ==== Sys2Proof/Laws/Ops.lean ====
section
/-! SUPPORT. The laws of the sample memory, and what the small shared operations can do. -/

namespace Sys2Proof.Machine

/-! ### The sample memory -/

theorem memRead?_memWrite_same (m : SampleMem) (a : Nat) (v : Dur) : memRead? (memWrite m a v) a = some v := by
  induction m with
  | nil => simp [memWrite, memRead?]
  | cons c m ih =>
    obtain ⟨k, w⟩ := c
    by_cases h1 : a < k
    · simp [memWrite, memRead?, h1]
    · by_cases h2 : a = k
      · simp [memWrite, memRead?, h2]
      · simp [memWrite, memRead?, h1, h2, ih]

theorem memRead?_memWrite_other (m : SampleMem) {a b : Nat} (v : Dur) (h : b ≠ a) :
    memRead? (memWrite m a v) b = memRead? m b := by
  induction m with
  | nil => simp [memWrite, memRead?, h]
  | cons c m ih =>
    obtain ⟨k, w⟩ := c
    by_cases h1 : a < k
    · simp [memWrite, memRead?, h1, h]
    · by_cases h2 : a = k
      · subst h2
        simp [memWrite, memRead?, h]
      · simp [memWrite, memRead?, h1, h2, ih]

/-- An entry that has been written stays written. -/
theorem memRead?_isSome_memWrite (m : SampleMem) (a b : Nat) (v : Dur) (h : (memRead? m b).isSome = true) :
    (memRead? (memWrite m a v) b).isSome = true := by
  by_cases hb : b = a
  · simp [hb, memRead?_memWrite_same]
  · rw [memRead?_memWrite_other m v hb]
    exact h

theorem memWf_memWrite (m : SampleMem) (a : Nat) (v : Dur) (h : memWf m = true) : memWf (memWrite m a v) = true := by
  induction m with
  | nil => simp [memWrite, memWf]
  | cons c m ih =>
    obtain ⟨k, w⟩ := c
    by_cases h1 : a < k
    · simp [memWrite, h1, memWf, h]
    · by_cases h2 : a = k
      · subst h2
        simp only [memWrite, h1, if_false, if_true]
        cases m with
        | nil => simp [memWf]
        | cons d m => simpa [memWf] using h
      · simp only [memWrite, h1, h2, if_false]
        cases m with
        | nil => simp [memWrite, memWf]; omega
        | cons d m =>
          obtain ⟨k', w'⟩ := d
          simp only [memWf, Bool.and_eq_true, decide_eq_true_eq] at h
          have ht := ih h.2
          by_cases h3 : a < k'
          · simp only [memWrite, h3, if_true] at ht ⊢
            simp only [memWf, Bool.and_eq_true, decide_eq_true_eq]
            exact ⟨by omega, h3, h.2⟩
          · by_cases h4 : a = k'
            · subst h4
              simp only [memWrite, lt_irrefl, if_false, if_true] at ht ⊢
              simp only [memWf, Bool.and_eq_true, decide_eq_true_eq]
              exact ⟨h.1, ht⟩
            · simp only [memWrite, h3, h4, if_false] at ht ⊢
              simp only [memWf, Bool.and_eq_true, decide_eq_true_eq]
              exact ⟨h.1, ht⟩

theorem memInRange_memWrite (cap : Nat) (m : SampleMem) (b : Bank) (i : Nat) (v : Dur) (hi : i < cap)
    (h : memInRange cap m = true) : memInRange cap (memWrite m (slotKey b i) v) = true := by
  have hk : (decide (slotKey b i < cap) || (decide (256 ≤ slotKey b i) && decide (slotKey b i < 256 + cap))) = true := by
    have := b.isLt
    simp only [Bool.or_eq_true, Bool.and_eq_true, decide_eq_true_eq]
    simp only [slotKey]
    omega
  generalize slotKey b i = a at hk
  unfold memInRange at h ⊢
  induction m with
  | nil => simpa [memWrite] using hk
  | cons c m ih =>
    obtain ⟨k, w⟩ := c
    simp only [List.all_cons, Bool.and_eq_true] at h
    by_cases h1 : a < k
    · simp only [memWrite, h1, if_true, List.all_cons, Bool.and_eq_true]
      exact ⟨hk, h⟩
    · by_cases h2 : a = k
      · subst h2
        simp only [memWrite, lt_irrefl, if_false, if_true, List.all_cons, Bool.and_eq_true]
        exact ⟨hk, h.2⟩
      · simp only [memWrite, h1, h2, if_false, List.all_cons, Bool.and_eq_true]
        exact ⟨h.1, ih h.2⟩

/-- Every memory operation keeps the canonical form: there are two, and both go through `memWrite`. -/
theorem memWf_setSample (b : Bank) (i : Nat) (v : Dur) (s : State) (h : memWf s.mem = true) :
    memWf (setSample b i v s).mem = true := memWf_memWrite _ _ _ h

/-- The memory after reset is in canonical form, whatever the parameters. -/
theorem memWf_resetOf (c : Config) : memWf (State.resetOf c).mem = true ∧ memInRange c.cap (State.resetOf c).mem = true :=
  ⟨rfl, rfl⟩

/-- Slots below 256 have keys of their own. -/
theorem slotKey_inj {b c : Bank} {i j : Nat} (hi : i < 256) (hj : j < 256) (h : slotKey b i = slotKey c j) :
    b = c ∧ i = j := by
  have hb := b.isLt
  have hc := c.isLt
  simp only [slotKey] at h
  exact ⟨Fin.ext (by omega), by omega⟩

theorem otherBank_ne (b : Bank) : otherBank b ≠ b := by
  revert b
  decide

theorem otherBank_otherBank (b : Bank) : otherBank (otherBank b) = b := by
  revert b
  decide

/-! ### Samples -/

theorem sample_congr {s t : State} (h : t.mem = s.mem) (b : Bank) (i : Nat) : sample t b i = sample s b i := by
  simp [sample, h]

theorem sample_setSample_same (s : State) (b : Bank) (i : Nat) (v : Dur) : sample (setSample b i v s) b i = v := by
  simp [sample, memRead?_memWrite_same]

theorem sample_setSample_other (s : State) {b c : Bank} {i j : Nat} (v : Dur) (h : slotKey c j ≠ slotKey b i) :
    sample (setSample b i v s) c j = sample s c j := by
  simp [sample, memRead?_memWrite_other _ _ h]

/-! ### Saturation and time -/

/-- `sat16` clamps to 0..65535. -/
theorem sat16_toNat (x : Int) : ((sat16 x).toNat : Int) = max 0 (min 65535 x) := by
  simp only [sat16, BitVec.toNat_ofNat]
  omega

/-- The elapsed time fits the timer. -/
theorem elapsed_le (s : State) : elapsed s ≤ 65535 := Nat.min_le_right _ _

theorem setTimer_timer_toNat (e : Nat) (s : State) (h : e ≤ 65535) : (setTimer e s).p.timer.toNat = e := by
  simp only [setTimer, BitVec.toNat_ofNat]
  omega

/-- Taking the environment's choice changes the model's own fields `agenda` and `draws` only. -/
theorem takeEvent_eq (s : State) : ∃ a d, takeEvent s = { s with agenda := a, draws := d } := by
  unfold takeEvent
  split <;> exact ⟨_, _, rfl⟩

/-- Taking the event of an agenda that a command was put on gives the state back. -/
theorem takeEvent_withHead (s : State) (e : Event) : takeEvent { s with agenda := e :: s.agenda } = s := rfl

theorem nextEvent_withHead (s : State) (e : Event) (l : List Event) : nextEvent { s with agenda := e :: l } = e := rfl

end Sys2Proof.Machine
end

