-- ==== Sys2Proof/Laws/Handoff.lean ====
section
/-! SUPPORT. What completion, RESUME and the deliveries can do. -/

namespace Sys2Proof.Machine

theorem complete_held {s : State} (h : s.p.hold = true) : complete s = clearCapture (loseFrame s) := by
  simp [complete, h]

theorem complete_free {s : State} (h : s.p.hold = false) : complete s = clearCapture (handOff s) := by
  simp [complete, h]

/-- Completion touches only the producer and ch.h. -/
@[simp] theorem complete_fields (s : State) :
    (complete s).par = s.par ∧ (complete s).en = s.en ∧ (complete s).status = s.status ∧
    (complete s).irqen = s.irqen ∧ (complete s).flen = s.flen ∧ (complete s).errinfo = s.errinfo ∧
    (complete s).pcfg = s.pcfg ∧ (complete s).mcfg = s.mcfg ∧ (complete s).res = s.res ∧
    (complete s).cbank = s.cbank ∧ (complete s).mop = s.mop ∧ (complete s).mem = s.mem ∧
    (complete s).resp = s.resp ∧ (complete s).agenda = s.agenda ∧ (complete s).draws = s.draws := by
  cases h : s.p.hold <;> simp [complete, h]

/-- Completion leaves the producer idle, with an empty frame, the same timer, level and enable. -/
@[simp] theorem complete_producer (s : State) :
    (complete s).p.en = s.p.en ∧ (complete s).p.state = .idle ∧ (complete s).p.lev = s.p.lev ∧
    (complete s).p.timer = s.p.timer ∧ (complete s).p.len = 0 ∧ (complete s).p.ovf = false ∧
    (complete s).p.hold = true := by
  cases h : s.p.hold <;> simp [complete, h]

@[simp] theorem deliverEn_producer (s : State) :
    (deliverEn s).p.en = s.en ∧ (deliverEn s).p.lev = s.p.lev ∧ (deliverEn s).p.bank = s.p.bank ∧
    (deliverEn s).p.hold = s.p.hold ∧ (deliverEn s).p.hlen = s.p.hlen ∧ (deliverEn s).p.hbank = s.p.hbank ∧
    (deliverEn s).p.hovf = s.p.hovf ∧ (deliverEn s).p.lost = s.p.lost := by
  cases h : s.en <;> simp [deliverEn, h]

/-- RESUME answers one of three states. -/
theorem execResume_cases {s t : State} (h : execResume s = .next t) :
    (s.status.mbusy = true ∧ t = raiseCmdError .busyCmd s) ∨
    (s.status.mbusy = false ∧ s.status.ready = true ∧ t = releaseFrame s) ∨
    (s.status.mbusy = false ∧ s.status.ready = false ∧ t = s) := by
  unfold execResume at h
  cases hb : s.status.mbusy <;> cases hr : s.status.ready <;> simp_all

end Sys2Proof.Machine
end

