-- ==== Sys2Proof/Laws/Capture.lean ====
section
/-! SUPPORT. What a producer tick can do. -/

namespace Sys2Proof.Machine

/-- `Record` on a frame that is not full. -/
theorem record_room {s : State} (d : Nat) (lvl : Level) (h : s.p.len < s.par.cap) :
    record d lvl s =
      { setSample s.p.bank s.p.len (adjust s d lvl) s with p := { s.p with len := s.p.len + 1 } } := by
  simp [record, recordSlot, h]

/-- `Record` on a full frame overwrites the last slot. -/
theorem record_full {s : State} (d : Nat) (lvl : Level) (h : s.par.cap ≤ s.p.len) :
    record d lvl s =
      { setSample s.p.bank (s.par.cap - 1) (adjust s d lvl) s with p := { s.p with ovf := true } } := by
  simp [record, recordSlot, Nat.not_lt.mpr h]

/-- What `Record` does to the memory, full or not. -/
@[simp] theorem record_mem (d : Nat) (lvl : Level) (s : State) :
    (record d lvl s).mem = memWrite s.mem (slotKey s.p.bank (recordSlot s)) (adjust s d lvl) := by
  unfold record
  split <;> simp

/-- `Record` keeps the memory's canonical form. -/
theorem memWf_record (d : Nat) (lvl : Level) (s : State) (h : memWf s.mem = true) : memWf (record d lvl s).mem = true := by
  rw [record_mem]
  exact memWf_memWrite _ _ _ h

/-- What `Record` leaves of the producer. -/
@[simp] theorem record_producer (d : Nat) (lvl : Level) (s : State) :
    (record d lvl s).p.en = s.p.en ∧ (record d lvl s).p.state = s.p.state ∧ (record d lvl s).p.lev = s.p.lev ∧
    (record d lvl s).p.timer = s.p.timer ∧ (record d lvl s).p.bank = s.p.bank ∧
    (record d lvl s).p.hold = s.p.hold ∧ (record d lvl s).p.hlen = s.p.hlen ∧
    (record d lvl s).p.hbank = s.p.hbank ∧ (record d lvl s).p.hovf = s.p.hovf ∧
    (record d lvl s).p.lost = s.p.lost := by
  unfold record
  split <;> simp

/-- The slot recorded into exists. -/
theorem recordSlot_lt {s : State} (h : 1 ≤ s.par.cap) : recordSlot s < s.par.cap := by
  unfold recordSlot
  split <;> omega

/-- The producer after a starting frame's bank is chosen. -/
@[simp] theorem selectBank_producer (s : State) :
    (selectBank s).p.en = s.p.en ∧ (selectBank s).p.state = s.p.state ∧ (selectBank s).p.lev = s.p.lev ∧
    (selectBank s).p.timer = s.p.timer ∧ (selectBank s).p.len = s.p.len ∧ (selectBank s).p.ovf = s.p.ovf ∧
    (selectBank s).p.hold = s.p.hold ∧ (selectBank s).p.hlen = s.p.hlen ∧ (selectBank s).p.hbank = s.p.hbank ∧
    (selectBank s).p.hovf = s.p.hovf ∧ (selectBank s).p.lost = s.p.lost := by
  unfold selectBank
  split <;> simp

/-- An accepted change answers one of: a frame starts, a start is blocked, nothing is recorded, a data slot is
recorded. -/
theorem changeCase_cases (l : Level) (e : Nat) (s : State) :
    (s.p.state = .idle ∧ changeCase l e s = s) ∨
    (s.p.state = .idle ∧ l = .mark ∧ s.pcfg.gap.toNat ≤ e ∧ s.pcfg.bufmode = .single ∧ s.p.hold = true ∧
      changeCase l e s = loseFrame s) ∨
    (s.p.state = .idle ∧ l = .mark ∧ s.pcfg.gap.toNat ≤ e ∧ ¬ (s.pcfg.bufmode = .single ∧ s.p.hold = true) ∧
      changeCase l e s = setPState .mark (record e .space (selectBank s))) ∨
    (s.p.state = .mark ∧ changeCase l e s = setPState .space (record e .mark s)) ∨
    (s.p.state = .space ∧ changeCase l e s = setPState .mark (record e .space s)) := by
  unfold changeCase startFrame
  cases hs : s.p.state
  · by_cases h1 : l = .mark ∧ s.pcfg.gap.toNat ≤ e
    · by_cases h2 : s.pcfg.bufmode = .single ∧ s.p.hold = true
      · simp [h1, h2]
      · simp [h1, h2]
    · simp [h1]
  · simp
  · simp

/-- An accepted change touches only the producer and the memory. -/
@[simp] theorem acceptChange_fields (l : Level) (e : Nat) (s : State) :
    (acceptChange l e s).par = s.par ∧ (acceptChange l e s).en = s.en ∧ (acceptChange l e s).status = s.status ∧
    (acceptChange l e s).irqen = s.irqen ∧ (acceptChange l e s).flen = s.flen ∧
    (acceptChange l e s).errinfo = s.errinfo ∧ (acceptChange l e s).pcfg = s.pcfg ∧
    (acceptChange l e s).mcfg = s.mcfg ∧ (acceptChange l e s).res = s.res ∧ (acceptChange l e s).cbank = s.cbank ∧
    (acceptChange l e s).mop = s.mop ∧ (acceptChange l e s).resp = s.resp ∧ (acceptChange l e s).agenda = s.agenda ∧
    (acceptChange l e s).draws = s.draws := by
  rcases changeCase_cases l e s with ⟨-, h⟩ | ⟨-, -, -, -, -, h⟩ | ⟨-, -, -, -, h⟩ | ⟨-, h⟩ | ⟨-, h⟩ <;>
    simp [acceptChange, h]

/-- The frame-end check touches only the producer and ch.h. -/
@[simp] theorem frameEnd_fields (e : Nat) (s : State) :
    (frameEnd e s).par = s.par ∧ (frameEnd e s).en = s.en ∧ (frameEnd e s).status = s.status ∧
    (frameEnd e s).irqen = s.irqen ∧ (frameEnd e s).flen = s.flen ∧ (frameEnd e s).errinfo = s.errinfo ∧
    (frameEnd e s).pcfg = s.pcfg ∧ (frameEnd e s).mcfg = s.mcfg ∧ (frameEnd e s).res = s.res ∧
    (frameEnd e s).cbank = s.cbank ∧ (frameEnd e s).mop = s.mop ∧ (frameEnd e s).resp = s.resp ∧
    (frameEnd e s).agenda = s.agenda ∧ (frameEnd e s).draws = s.draws := by
  unfold frameEnd
  split <;> simp

/-- A tick changes no field but the producer, ch and the memory. -/
@[simp] theorem ptick_fields (l : Level) (s : State) :
    (ptick l s).par = s.par ∧ (ptick l s).en = s.en ∧ (ptick l s).status = s.status ∧ (ptick l s).irqen = s.irqen ∧
    (ptick l s).flen = s.flen ∧ (ptick l s).errinfo = s.errinfo ∧ (ptick l s).pcfg = s.pcfg ∧
    (ptick l s).mcfg = s.mcfg ∧ (ptick l s).res = s.res ∧ (ptick l s).cbank = s.cbank ∧ (ptick l s).mop = s.mop ∧
    (ptick l s).resp = s.resp ∧ (ptick l s).agenda = s.agenda ∧ (ptick l s).draws = s.draws := by
  unfold ptick levelPart
  split
  · split
    · split <;> simp
    · simp
  · simp

/-- A disabled tick (R122). -/
theorem ptick_disabled (l : Level) {s : State} (h : s.p.en = false) :
    ptick l s = { s with p := { s.p with lev := l, timer := 0 } } := by
  simp [ptick, h]

/-- An enabled tick: the frame end, if it is due, and then the level part. -/
theorem ptick_enabled (l : Level) {s : State} (h : s.p.en = true) :
    ptick l s = levelPart l (elapsed s) (frameEnd (elapsed s) s) := by
  simp [ptick, h]

/-- The frame end is not due. -/
theorem frameEnd_of_not {e : Nat} {s : State} (h : ¬ (s.p.state = .space ∧ s.pcfg.gap.toNat ≤ e)) :
    frameEnd e s = s := by
  simp [frameEnd, h]

/-- The frame end is due. -/
theorem frameEnd_of {e : Nat} {s : State} (h1 : s.p.state = .space) (h2 : s.pcfg.gap.toNat ≤ e) :
    frameEnd e s = complete s := by
  simp [frameEnd, h1, h2]

/-- The level part does one of three things: the timer runs on, or a change is accepted. -/
theorem levelPart_cases (l : Level) (e : Nat) (s : State) :
    ((l = s.p.lev ∨ e < s.pcfg.noise.toNat) ∧ levelPart l e s = setTimer e s) ∨
    (l ≠ s.p.lev ∧ s.pcfg.noise.toNat ≤ e ∧ levelPart l e s = acceptChange l e s) := by
  unfold levelPart
  by_cases h1 : l ≠ s.p.lev
  · by_cases h2 : e < s.pcfg.noise.toNat
    · exact .inl ⟨.inr h2, by simp [h2]⟩
    · exact .inr ⟨h1, by omega, by simp [h1, h2]⟩
  · exact .inl ⟨.inl (not_not.mp h1), by simp [h1]⟩

end Sys2Proof.Machine
end

