-- ==== Sys2Proof/Laws/Host.lean ====
section
/-! SUPPORT. What a register-port access and a command can do. -/

namespace Sys2Proof.Machine

/-- A command answers one of: an error, nothing, a release, or a matcher operation begun. -/
theorem exec_cases {i : Instr} {s t : State} (h : exec i s = .next t) :
    (∃ c, t = raiseCmdError c s) ∨ t = s ∨
    (s.status.mbusy = false ∧ s.status.ready = true ∧ t = releaseFrame s ∧ i = .resume) ∨
    (∃ op, s.status.mbusy = false ∧ op ≠ .none ∧ (op ≠ .matchDur → s.status.ready = true) ∧ t = startMatcher op s) := by
  cases i
  · simp only [exec, execNop, Host.Outcome.next.injEq] at h
    exact .inr (.inl h.symm)
  · simp only [exec] at h
    rcases execResume_cases h with ⟨-, h⟩ | ⟨hb, hr, h⟩ | ⟨-, -, h⟩
    · exact .inl ⟨_, h⟩
    · exact .inr (.inr (.inl ⟨hb, hr, h, rfl⟩))
    · exact .inr (.inl h)
  · simp only [exec, execMatchDur] at h
    split at h <;> simp only [Host.Outcome.next.injEq] at h
    · exact .inl ⟨_, h.symm⟩
    · exact .inr (.inr (.inr ⟨.matchDur, by simp_all, by simp, by simp, h.symm⟩))
  · simp only [exec, execDecode] at h
    split at h
    · simp only [Host.Outcome.next.injEq] at h
      exact .inl ⟨_, h.symm⟩
    · split at h <;> simp only [Host.Outcome.next.injEq] at h
      · exact .inr (.inr (.inr ⟨.decode, by simp_all, by simp, by simp_all, h.symm⟩))
      · exact .inl ⟨_, h.symm⟩
  · simp only [exec, execMatchLit] at h
    split at h
    · simp only [Host.Outcome.next.injEq] at h
      exact .inl ⟨_, h.symm⟩
    · split at h <;> simp only [Host.Outcome.next.injEq] at h
      · exact .inr (.inr (.inr ⟨.matchLit, by simp_all, by simp, by simp_all, h.symm⟩))
      · exact .inl ⟨_, h.symm⟩

/-- Every command answers a next state. -/
theorem exec_next (i : Instr) (s : State) : ∃ t, exec i s = .next t := by
  cases i <;> simp only [exec, execNop, execResume, execMatchDur, execDecode, execMatchLit]
  · exact ⟨s, rfl⟩
  all_goals (repeat' split) <;> exact ⟨_, rfl⟩

/-- A write answers one of these states. -/
inductive WriteEffect (s : State) : State → Prop where
  /-- A read-only target, NOP, or RESUME with no frame. -/
  | ignored : WriteEffect s s
  /-- A refused write. -/
  | refused (c : Cause) : WriteEffect s (raiseCmdError c s)
  /-- CTRL (R226). -/
  | ctrl (b : Bool) (h : ¬ (b ≠ s.en ∧ s.en ≠ s.status.pact)) : WriteEffect s { s with en := b }
  /-- STATUS (R225). -/
  | status (w : Word) : WriteEffect s (writeStatus w s)
  /-- IRQEN (R232). -/
  | irqen (w : Word) : WriteEffect s (writeIrqen w s)
  /-- Producer configuration (R228). -/
  | pcfg (r : Reg) (w : Word) (h : pcfgOpen s = true) : WriteEffect s { s with pcfg := storePcfg r w s.pcfg }
  /-- Matcher configuration (R229). -/
  | mcfg (r : Reg) (w : Word) (hb : s.status.mbusy = false)
      (hl : ¬ (r = .litLen ∧ s.par.litMax < (w.setWidth 5 : BitVec 5).toNat)) :
      WriteEffect s { s with mcfg := storeMcfg r w s.mcfg }
  /-- RESUME of a pending frame (R160). -/
  | release (hb : s.status.mbusy = false) (hr : s.status.ready = true) : WriteEffect s (releaseFrame s)
  /-- A matcher command accepted (R227). -/
  | start (op : MOp) (hb : s.status.mbusy = false) (ho : op ≠ .none) (hr : op ≠ .matchDur → s.status.ready = true) :
      WriteEffect s (startMatcher op s)

theorem issueCommand_effect {w : Word} {s t : State} (h : issueCommand w s = .next t) : WriteEffect s t := by
  unfold issueCommand at h
  split at h
  · rcases exec_cases h with ⟨c, rfl⟩ | rfl | ⟨hb, hr, rfl, -⟩ | ⟨op, hb, ho, hr, rfl⟩
    · exact .refused c
    · exact .ignored
    · exact .release hb hr
    · exact .start op hb ho hr
  · simp only [Host.Outcome.next.injEq] at h
    exact h ▸ .refused _

theorem writeReg_effect {r : Reg} {w : Word} {s t : State} (h : writeReg r w s = .next t) : WriteEffect s t := by
  unfold writeReg at h
  split at h
  case h_5 => exact issueCommand_effect h
  all_goals simp only [Host.Outcome.next.injEq] at h; subst h
  · exact .ignored
  · unfold writeCtrl
    split
    · exact .refused _
    · exact .ctrl _ ‹_›
  · exact .status w
  · exact .irqen w
  · unfold writePcfg
    split
    · exact .pcfg r w ‹_›
    · exact .refused _
  · unfold writeMcfg
    split
    · exact .refused _
    · split
      · exact .refused _
      · exact .mcfg r w (by simp_all) ‹_›

/-- An access answers one of: BusError, a read's word, or a write's effect after the answer err = 0, rdata = 0. -/
theorem hostAccess_cases {a : Access} {s t : State} (h : hostAccess a s = .next t) :
    t = raiseBusError s ∨ (a.write = false ∧ ∃ r, t = answer (readReg r s) s) ∨
    (a.write = true ∧ WriteEffect (answer 0 s) t) := by
  unfold hostAccess at h
  split at h
  · simp only [Host.Outcome.next.injEq] at h
    exact .inl h.symm
  · split at h
    · simp only [Host.Outcome.next.injEq] at h
      exact .inl h.symm
    · split at h
      · exact .inr (.inr ⟨‹_›, writeReg_effect h⟩)
      · simp only [Host.Outcome.next.injEq] at h
        exact .inr (.inl ⟨by simp_all, _, h.symm⟩)

/-- Every access answers a next state. -/
theorem hostAccess_next (a : Access) (s : State) : ∃ t, hostAccess a s = .next t := by
  unfold hostAccess
  split
  · exact ⟨_, rfl⟩
  · split
    · exact ⟨_, rfl⟩
    · split
      · unfold writeReg
        split
        case h_5 =>
          unfold issueCommand
          split
          · exact exec_next _ _
          · exact ⟨_, rfl⟩
        all_goals exact ⟨_, rfl⟩
      · exact ⟨_, rfl⟩

/-- An aligned access that reaches a register is at its offset. -/
theorem regOffset_of_regAt {n a : Nat} {r : Reg} (h4 : a % 4 = 0) (h : regAt n a = some r) : regOffset r = a := by
  unfold regAt at h
  split at h
  · cases h
    simp [regOffset]
    omega
  · split at h
    · cases h
      simp [regOffset]
      omega
    · simpa using List.find?_some h

/-- An access to a register finds it. -/
theorem regAt_of_accessTo {s : State} {a : Access} {r : Reg} (h : Safety.AccessTo s a r) :
    a.addr.toNat % 4 = 0 ∧ regAt s.par.litMax a.addr.toNat = some r := by
  obtain ⟨ha, he, hm⟩ := h
  rw [ha]
  constructor
  · cases r <;> simp [regOffset]
  · cases r
    case lit k =>
      have hk : k < s.par.litMax := by simpa [Safety.regExists] using he
      have e : (0x0C0 + 4 * k - 0x0C0) / 4 = k := by omega
      show regAt s.par.litMax (0x0C0 + 4 * k) = _
      unfold regAt
      rw [if_neg (show ¬ (0x400 ≤ 0x0C0 + 4 * k ∧ 0x0C0 + 4 * k < 0x800) by omega),
        if_pos (show 0x0C0 ≤ 0x0C0 + 4 * k ∧ 0x0C0 + 4 * k < 0x0C0 + 4 * s.par.litMax by omega), e]
    case frame i =>
      have hi : i ≤ 255 := by simpa [Safety.regExists] using he
      have e : (0x400 + 4 * i - 0x400) / 4 = i := by omega
      show regAt s.par.litMax (0x400 + 4 * i) = _
      unfold regAt
      rw [if_pos (show 0x400 ≤ 0x400 + 4 * i ∧ 0x400 + 4 * i < 0x800 by omega), e]
    all_goals
      simp [regAt, regOffset, singleRegs]

/-- A write to a register is `WriteReg` after the port's answer (R220, R223). -/
theorem hostAccess_write {s : State} {a : Access} {r : Reg} (h : Safety.AccessTo s a r) (hw : a.write = true) :
    hostAccess a s = writeReg r a.wdata (answer 0 s) := by
  obtain ⟨h4, hr⟩ := regAt_of_accessTo h
  simp [hostAccess, h4, hr, hw]

/-- A read of a register answers its word (R220, R221). -/
theorem hostAccess_read {s : State} {a : Access} {r : Reg} (h : Safety.AccessTo s a r) (hw : a.write = false) :
    hostAccess a s = .next (answer (readReg r s) s) := by
  obtain ⟨h4, hr⟩ := regAt_of_accessTo h
  simp [hostAccess, h4, hr, hw]

/-- The access that issues a command runs it, after the port's answer. -/
theorem hostAccess_commandAccess (w : Word) (s : State) : hostAccess (commandAccess w) s = issueCommand w (answer 0 s) := by
  have h : ∀ n, regAt n (commandAccess w).addr.toNat = some .cmd := by
    intro n
    simp [regAt, commandAccess, singleRegs, regOffset]
  unfold hostAccess
  rw [h]
  simp [commandAccess, writeReg, writeRule]

end Sys2Proof.Machine
end

