-- ==== Sys2Proof/Laws/Matcher.lean ====
section
/-! SUPPORT. What the scans of the sequence matcher can answer, and what the matcher depends on. -/

namespace Sys2Proof.Machine

open Sys2Proof.Safety

/-! ### The matcher depends on the matcher configuration, FLEN and the frame's slots -/

theorem tolHolds_congr {s t : State} (hm : t.mcfg = s.mcfg) (o x : Dur) : tolHolds t o x = tolHolds s o x := by
  simp [tolHolds, tolPct, tolAbs, hm]

theorem litScan_congr {s t : State} (hm : t.mcfg = s.mcfg) (n k : Nat)
    (h : ∀ i, i < k + n → frameSlot t (i + 1) = frameSlot s (i + 1)) : litScan t n k = litScan s n k := by
  induction n generalizing k with
  | zero => rfl
  | succ n ih =>
    simp only [litScan, tolHolds_congr hm, h k (by omega), litEntry, hm]
    rw [ih (k + 1) fun i hi => h i (by omega)]
    congr!

theorem litMatch_congr {s t : State} (hm : t.mcfg = s.mcfg) (hf : t.flen = s.flen)
    (h : ∀ i ≤ frameLen s - 1, frameSlot t i = frameSlot s i) : litMatch t = litMatch s := by
  have hl : frameLen t = frameLen s := by simp [frameLen, hf]
  have hc : litCount t = litCount s := by simp [litCount, hm]
  unfold litMatch rawCount
  rw [hl, hc]
  split
  · rfl
  · next hn => exact litScan_congr hm _ _ fun i hi => h (i + 1) (by simp at hn; omega)

theorem headerSlot_congr {s t : State} (hm : t.mcfg = s.mcfg) (hf : t.flen = s.flen)
    (h : ∀ i ≤ frameLen s - 1, frameSlot t i = frameSlot s i) (x : Dur) (why : Reason) (c : Nat) :
    headerSlot t x why c = headerSlot s x why c := by
  have hl : frameLen t = frameLen s := by simp [frameLen, hf]
  unfold headerSlot rawCount rawLen
  simp only [hl, hm, tolHolds_congr hm]
  by_cases hc : frameLen s ≤ c
  · simp [hc]
  · rw [h c (by omega)]

theorem dataScan_congr {s t : State} (hm : t.mcfg = s.mcfg) (n i : Nat) (v : Word) (b : Nat)
    (h : ∀ j, j < i + n → frameSlot t j = frameSlot s j) : dataScan t n i v b = dataScan s n i v b := by
  induction n generalizing i v b with
  | zero => rfl
  | succ n ih =>
    have hd : dataSlot t i v b = dataSlot s i v b := by
      simp only [dataSlot, bitSlot, constSlot, tolHolds_congr hm, h i (by omega), markLength, hm]
      congr!
    simp only [dataScan, hd]
    split
    · exact ih _ _ _ fun j hj => h j (by omega)
    · rfl

theorem generic_congr {s t : State} (hm : t.mcfg = s.mcfg) (hf : t.flen = s.flen)
    (h : ∀ i ≤ frameLen s - 1, frameSlot t i = frameSlot s i) : generic t = generic s := by
  have hl : frameLen t = frameLen s := by simp [frameLen, hf]
  have hb : ∀ c, genericBody t c = genericBody s c := by
    intro c
    unfold genericBody
    by_cases hc : frameLen s - 1 < c
    · have hz : frameLen s - c = 0 := by omega
      simp [hl, hm, hc, hz, dataScan, rawCount, rawLen]
    · have h1 := dataScan_congr hm (frameLen s - 1 - c) c 0 0 fun j hj => h j (by omega)
      have h2 := dataScan_congr hm (frameLen s - c) c 0 0 fun j hj => h j (by omega)
      have hst : ∀ v b, stopCheck t v b = stopCheck s v b := by
        intro v b
        simp only [stopCheck, hl, tolHolds_congr hm, stopMark, markLength, hm, h (frameLen s - 1) (by omega)]
        congr!
      simp only [rawCount, rawLen, hl, hm, h1, h2, hst]
  unfold generic
  simp only [hl, hm, headerSlot_congr hm hf h, hb, rawLen, rawCount]
  congr!

/-- What the completion step writes depends on the matcher configuration alone for MATCH_DUR, and on the frame as well for
DECODE and MATCH_LIT. -/
theorem matcherResult_congr {s t : State} (hm : t.mcfg = s.mcfg) (ho : t.mop = s.mop) (hr : t.res = s.res)
    (hf : t.flen = s.flen)
    (h : s.mop = .decode ∨ s.mop = .matchLit → ∀ i ≤ frameLen s - 1, frameSlot t i = frameSlot s i) :
    matcherResult t = matcherResult s := by
  cases hop : s.mop
  · simp [matcherResult, ho, hr, hop]
  · simp only [matcherResult, ho, hop, matchDurResult, tolHolds_congr hm, hm]
  · have h' := h (by simp [hop])
    simp only [matcherResult, ho, hop, hm, decodeVerdict, litMatch_congr hm hf h', generic_congr hm hf h', litCount]
    congr!
  · simp only [matcherResult, ho, hop, hm, litMatch_congr hm hf (h (by simp [hop]))]

/-! ### The literal scan (R183, R202) -/

/-- The scan succeeds, or stops at the first slot out of tolerance. -/
theorem litScan_cases (s : State) (n k : Nat) :
    ((∀ j, k ≤ j → j < k + n → tolHolds s (frameSlot s (j + 1)) (litEntry s j) = true) ∧ litScan s n k = .repeated) ∨
    ∃ m, k ≤ m ∧ m < k + n ∧ (∀ j, k ≤ j → j < m → tolHolds s (frameSlot s (j + 1)) (litEntry s j) = true) ∧
      tolHolds s (frameSlot s (m + 1)) (litEntry s m) = false ∧
      litScan s n k = .noMatch (slotReason (m + 1)) (m + 1) (litEntry s m) (frameSlot s (m + 1)) := by
  induction n generalizing k with
  | zero => exact .inl ⟨by intros; omega, rfl⟩
  | succ n ih =>
    cases hk : tolHolds s (frameSlot s (k + 1)) (litEntry s k)
    · exact .inr ⟨k, le_refl _, by omega, by intros; omega, hk, by simp [litScan, hk]⟩
    · have he : litScan s (n + 1) k = litScan s n (k + 1) := by simp [litScan, hk]
      rw [he]
      have extend : ∀ m, (∀ j, k + 1 ≤ j → j < m → tolHolds s (frameSlot s (j + 1)) (litEntry s j) = true) →
          ∀ j, k ≤ j → j < m → tolHolds s (frameSlot s (j + 1)) (litEntry s j) = true := by
        intro m hm j h1 h2
        rcases Nat.eq_or_lt_of_le h1 with rfl | h3
        · exact hk
        · exact hm j h3 h2
      rcases ih (k + 1) with ⟨h1, h2⟩ | ⟨m, h1, h2, h3, h4, h5⟩
      · exact .inl ⟨extend _ fun j a b => h1 j a (by omega), h2⟩
      · exact .inr ⟨m, by omega, by omega, extend _ h3, h4, h5⟩

/-! ### The data scan (R195-R198, R203) -/

/-- Shifting a bit in doubles the value and adds the bit, modulo 2^32 (R203). -/
theorem shiftIn_toNat (v : Word) (bit : Bool) : (shiftIn v bit).toNat = (2 * v.toNat + bit.toNat) % 2 ^ 32 := by
  have hv := v.isLt
  have hadd : shiftIn v bit = v * 2 + (BitVec.ofBool bit).setWidth 32 := by
    unfold shiftIn
    have h0 : v <<< 1 = v * 2 := by
      apply BitVec.eq_of_toNat_eq
      simp [BitVec.toNat_shiftLeft, Nat.shiftLeft_eq, BitVec.toNat_mul]
    rw [← h0]
    refine (BitVec.add_eq_or_of_and_eq_zero _ _ ?_).symm
    ext i hi
    cases bit <;> simp
    intro a _
    exact a
  rw [hadd]
  cases bit <;> simp [BitVec.toNat_add, BitVec.toNat_mul] <;> omega

theorem foldl_double (bits : List Bool) (v : Nat) :
    bits.foldl (fun v b => 2 * v + b.toNat) v = v * 2 ^ bits.length + bitsValue bits := by
  induction bits generalizing v with
  | nil => simp [bitsValue]
  | cons b bs ih =>
    have h1 := ih (2 * v + b.toNat)
    have h2 := ih (2 * 0 + b.toNat)
    simp only [bitsValue, List.foldl_cons, List.length_cons] at h1 h2 ⊢
    rw [h1, h2, pow_succ]
    ring

/-- Shifting bits in one by one gives their value, modulo 2^32. -/
theorem foldl_shiftIn (bits : List Bool) (v : Word) :
    bits.foldl shiftIn v = BitVec.ofNat 32 (v.toNat * 2 ^ bits.length + bitsValue bits) := by
  rw [← foldl_double]
  induction bits generalizing v with
  | nil => simp
  | cons b bs ih =>
    rw [List.foldl_cons, ih, List.foldl_cons, foldl_double, foldl_double, shiftIn_toNat]
    apply BitVec.eq_of_toNat_eq
    simp only [BitVec.toNat_ofNat]
    rw [Nat.add_mod, Nat.mod_mul_mod, ← Nat.add_mod]

theorem dataSlot_eq (s : State) (i : Nat) (v : Word) (b : Nat) :
    dataSlot s i v b =
      if carriesBit s i then takeBit v b (bitSlot s i (oneValue s) (zeroValue s))
      else takeConst v b (constSlot s i (constValue s)) := by
  unfold dataSlot carriesBit oneValue zeroValue constValue
  rcases Nat.mod_two_eq_zero_or_one i with h1 | h1 <;> cases h2 : markLength s <;> simp [h1]

/-- One slot of the data region: a bit, a constant, or a failure. -/
theorem dataSlot_cases (s : State) (i : Nat) (v : Word) (b : Nat) :
    (slotFits s i ∧ carriesBit s i = true ∧
      dataSlot s i v b = .ok (shiftIn v (tolHolds s (frameSlot s i) (oneValue s)), b + 1)) ∨
    (slotFits s i ∧ carriesBit s i = false ∧ dataSlot s i v b = .ok (v, b)) ∨
    (¬ slotFits s i ∧ carriesBit s i = true ∧ tolHolds s (frameSlot s i) (zeroValue s) = false ∧
      dataSlot s i v b = .error (.noMatch (slotReason i) i (zeroValue s) (frameSlot s i))) ∨
    (¬ slotFits s i ∧ carriesBit s i = false ∧ tolHolds s (frameSlot s i) (constValue s) = false ∧
      dataSlot s i v b = .error (.noMatch (slotReason i) i (constValue s) (frameSlot s i))) := by
  rw [dataSlot_eq]
  unfold slotFits bitSlot constSlot
  cases hc : carriesBit s i
  · cases h1 : tolHolds s (frameSlot s i) (constValue s) <;> simp [takeConst]
  · cases h1 : tolHolds s (frameSlot s i) (oneValue s) <;> cases h2 : tolHolds s (frameSlot s i) (zeroValue s) <;>
      simp [takeBit]

theorem bitsFrom_zero (s : State) (i : Nat) : bitsFrom s i 0 = [] := by simp [bitsFrom]

theorem bitsFrom_succ (s : State) (i n : Nat) :
    bitsFrom s i (n + 1) =
      if carriesBit s i = true then tolHolds s (frameSlot s i) (oneValue s) :: bitsFrom s (i + 1) n
      else bitsFrom s (i + 1) n := by
  cases hc : carriesBit s i <;> simp [bitsFrom, List.range'_succ, hc]

/-- Bit-carrying and constant slots alternate. -/
theorem carriesBit_succ (s : State) (i : Nat) : carriesBit s (i + 1) = !carriesBit s i := by
  unfold carriesBit
  rcases Nat.mod_two_eq_zero_or_one i with h | h
  · have h' : (i + 1) % 2 = 1 := by omega
    cases markLength s <;> simp [h, h']
  · have h' : (i + 1) % 2 = 0 := by omega
    cases markLength s <;> simp [h, h']

/-- At most every second slot carries a bit. -/
theorem bitsFrom_length_le (s : State) (i n : Nat) :
    (bitsFrom s i n).length ≤ (n + 1) / 2 ∧ (carriesBit s i = false → (bitsFrom s i n).length ≤ n / 2) := by
  induction n generalizing i with
  | zero => simp [bitsFrom]
  | succ n ih =>
    have h := ih (i + 1)
    rw [carriesBit_succ] at h
    rw [bitsFrom_succ]
    cases hc : carriesBit s i
    · simp [hc] at h ⊢
      omega
    · simp [hc] at h ⊢
      omega

/-- The data scan succeeds with the bits of its slots, or stops at the first slot that does not fit. -/
theorem dataScan_cases (s : State) (n i : Nat) (v : Word) (b : Nat) :
    ((∀ j, i ≤ j → j < i + n → slotFits s j) ∧
      dataScan s n i v b = .ok ((bitsFrom s i n).foldl shiftIn v, b + (bitsFrom s i n).length)) ∨
    ∃ j x, i ≤ j ∧ j < i + n ∧ ¬ slotFits s j ∧ (∀ m, i ≤ m → m < j → slotFits s m) ∧
      (x = if carriesBit s j = true then zeroValue s else constValue s) ∧ tolHolds s (frameSlot s j) x = false ∧
      dataScan s n i v b = .error (.noMatch (slotReason j) j x (frameSlot s j)) := by
  induction n generalizing i v b with
  | zero => exact .inl ⟨by intros; omega, by simp [dataScan, bitsFrom]⟩
  | succ n ih =>
    have go : ∀ v' b', slotFits s i → dataSlot s i v b = .ok (v', b') →
        ((∀ j, i ≤ j → j < i + (n + 1) → slotFits s j) ∧
          dataScan s (n + 1) i v b = .ok ((bitsFrom s (i + 1) n).foldl shiftIn v', b' + (bitsFrom s (i + 1) n).length)) ∨
        ∃ j x, i ≤ j ∧ j < i + (n + 1) ∧ ¬ slotFits s j ∧ (∀ m, i ≤ m → m < j → slotFits s m) ∧
          (x = if carriesBit s j = true then zeroValue s else constValue s) ∧ tolHolds s (frameSlot s j) x = false ∧
          dataScan s (n + 1) i v b = .error (.noMatch (slotReason j) j x (frameSlot s j)) := by
      intro v' b' hf hd
      rw [show dataScan s (n + 1) i v b = dataScan s n (i + 1) v' b' by rw [dataScan, hd]]
      have extend : ∀ m, (∀ j, i + 1 ≤ j → j < m → slotFits s j) → ∀ j, i ≤ j → j < m → slotFits s j := by
        intro m hm j h1 h2
        rcases Nat.eq_or_lt_of_le h1 with rfl | h3
        · exact hf
        · exact hm j h3 h2
      rcases ih (i + 1) v' b' with ⟨h1, h2⟩ | ⟨j, x, h1, h2, h3, h4, h5⟩
      · exact .inl ⟨extend _ fun j a c => h1 j a (by omega), h2⟩
      · exact .inr ⟨j, x, by omega, by omega, h3, extend _ h4, h5⟩
    rw [bitsFrom_succ]
    rcases dataSlot_cases s i v b with ⟨hf, hc, hd⟩ | ⟨hf, hc, hd⟩ | ⟨hf, hc, hz, hd⟩ | ⟨hf, hc, hz, hd⟩
    · simpa [hc, Nat.add_assoc, Nat.add_comm 1] using go _ _ hf hd
    · simpa [hc] using go _ _ hf hd
    · exact .inr ⟨i, _, le_refl _, by omega, hf, by intros; omega, by simp [hc], hz, by rw [dataScan, hd]⟩
    · exact .inr ⟨i, _, le_refl _, by omega, hf, by intros; omega, by simp [hc], hz, by rw [dataScan, hd]⟩

/-! ### Header slots and the body (R194, R196, R199) -/

/-- A header slot passes, is missing, or is out of tolerance. -/
theorem headerSlot_cases (s : State) (x : Dur) (why : Reason) (c : Nat) :
    (headerFits s x c ∧ headerSlot s x why c = .ok (if x = 0 then c else c + 1)) ∨
    (¬ headerFits s x c ∧ frameLen s ≤ c ∧ headerSlot s x why c = .error (rawCount s c (rawLen s))) ∨
    (¬ headerFits s x c ∧ c < frameLen s ∧ s.mcfg.hdrskip = false ∧ tolHolds s (frameSlot s c) x = false ∧
      headerSlot s x why c = .error (.noMatch why c x (frameSlot s c))) := by
  unfold headerSlot headerFits
  by_cases h0 : x = 0
  · left
    simp only [h0, if_true]
    exact ⟨.inl trivial, trivial⟩
  · by_cases h1 : frameLen s ≤ c
    · refine .inr (.inl ⟨?_, h1, by rw [if_neg h0, if_pos h1]⟩)
      rintro (h | ⟨h, -⟩)
      · exact h0 h
      · omega
    · rw [if_neg h0, if_neg h1, if_neg h0]
      cases h2 : s.mcfg.hdrskip <;> cases h3 : tolHolds s (frameSlot s c) x
      · refine .inr (.inr ⟨?_, by omega, rfl, rfl, by simp⟩)
        rintro (h | ⟨-, h | h⟩)
        · exact h0 h
        · simp at h
        · simp at h
      all_goals exact .inl ⟨.inr ⟨by omega, by simp⟩, by simp⟩

/-- What follows the header: a match, no room for the stop mark, a data slot that fails, or a stop mark that fails. -/
theorem genericBody_cases (s : State) (c : Nat) :
    ((s.mcfg.stop = true → c ≤ frameLen s - 1) ∧ (∀ i, c ≤ i → i < regionEnd s → slotFits s i) ∧
      (s.mcfg.stop = true → tolHolds s (frameSlot s (frameLen s - 1)) (stopMark s) = true) ∧
      genericBody s c =
        .matched ((bitsFrom s c (regionEnd s - c)).foldl shiftIn 0) (bitsFrom s c (regionEnd s - c)).length) ∨
    (s.mcfg.stop = true ∧ frameLen s - 1 < c ∧ genericBody s c = rawCount s c (rawLen s)) ∨
    (∃ j x, (s.mcfg.stop = true → c ≤ frameLen s - 1) ∧ c ≤ j ∧ j < regionEnd s ∧ ¬ slotFits s j ∧
      (∀ m, c ≤ m → m < j → slotFits s m) ∧
      (x = if carriesBit s j = true then zeroValue s else constValue s) ∧ tolHolds s (frameSlot s j) x = false ∧
      genericBody s c = .noMatch (slotReason j) j x (frameSlot s j)) ∨
    (s.mcfg.stop = true ∧ c ≤ frameLen s - 1 ∧ (∀ i, c ≤ i → i < regionEnd s → slotFits s i) ∧
      tolHolds s (frameSlot s (frameLen s - 1)) (stopMark s) = false ∧
      genericBody s c = .noMatch .dataMark (frameLen s - 1) (stopMark s) (frameSlot s (frameLen s - 1))) := by
  unfold genericBody
  cases hs : s.mcfg.stop
  · have hr : regionEnd s = frameLen s := by simp [regionEnd, hs]
    simp only [hr]
    rcases dataScan_cases s (frameLen s - c) c 0 0 with ⟨h1, h2⟩ | ⟨j, x, h1, h2, h3, h4, h5, h6, h7⟩
    · exact .inl ⟨by simp, fun i a b => h1 i a (by omega), by simp, by rw [h2]; simp⟩
    · exact .inr (.inr (.inl ⟨j, x, by simp, h1, by omega, h3, h4, h5, h6, by rw [h7]; rfl⟩))
  · have hr : regionEnd s = frameLen s - 1 := by simp [regionEnd, hs]
    simp only [hr]
    by_cases hc : frameLen s - 1 < c
    · exact .inr (.inl ⟨trivial, hc, by simp [hc]⟩)
    · rcases dataScan_cases s (frameLen s - 1 - c) c 0 0 with ⟨h1, h2⟩ | ⟨j, x, h1, h2, h3, h4, h5, h6, h7⟩
      · cases ht : tolHolds s (frameSlot s (frameLen s - 1)) (stopMark s)
        · exact .inr (.inr (.inr ⟨trivial, by omega, fun i a b => h1 i a (by omega), rfl,
            by rw [if_pos trivial, if_neg hc, h2]; simp [stopCheck, ht]⟩))
        · exact .inl ⟨fun _ => by omega, fun i a b => h1 i a (by omega), fun _ => rfl,
            by rw [if_pos trivial, if_neg hc, h2]; simp [stopCheck, ht]⟩
      · exact .inr (.inr (.inl ⟨j, x, fun _ => by omega, h1, by omega, h3, h4, h5, h6,
          by rw [if_pos trivial, if_neg hc, h7]⟩))

end Sys2Proof.Machine
end

