-- ==== Sys2Proof/Laws/PerInstr.lean ====
section
/-! SUPPORT. What holds of each command as syntax, one lemma per constructor. -/

namespace Sys2Proof.Laws.RoundTrip

/-- The command is well-formed, its word has RSV = 0 and OPC below 5, and the decoder reads it back from its word and from
the opcode table's bits of it (R80-R82). -/
def Statement (i : Instr) : Prop :=
  i.wf = true ∧ rsvOf (encode i) = 0 ∧ decodeWord (encode i) = .ok i ∧ (encode i).toNat < 5 ∧
    decodeTableWord 32 (encode i).toNat = some i

theorem nop : Statement .nop := by unfold Statement; decide
theorem resume : Statement .resume := by unfold Statement; decide
theorem matchDur : Statement .matchDur := by unfold Statement; decide
theorem decode : Statement .decode := by unfold Statement; decide
theorem matchLit : Statement .matchLit := by unfold Statement; decide

end Sys2Proof.Laws.RoundTrip
end

