-- ==== Sys2Proof/Laws/Step.lean ====
section
/-! SUPPORT. What one step of the machine can do. -/

namespace Sys2Proof.Machine

/-- One agent's step answers one of these states. -/
theorem runEvent_cases {e : Event} {s t : State} (h : runEvent e s = .next t) :
    (∃ m, e = .tick m ∧ t = ptick (levelOf m) s) ∨
    (∃ a, e = .host a ∧ hostAccess a s = .next t) ∨
    (e = .matcher ∧ s.status.mbusy = true ∧ t = matcherStep s) ∨
    (∃ c, e = .deliver c ∧ channelEnabled c s = true ∧ t = deliver c s) ∨
    (e = .reset ∧ t = resetStep s) ∨
    (t = s ∧ ((e = .matcher ∧ s.status.mbusy = false) ∨ ∃ c, e = .deliver c ∧ channelEnabled c s = false)) := by
  cases e with
  | tick m =>
    simp only [runEvent, Host.Outcome.next.injEq] at h
    exact .inl ⟨m, rfl, h.symm⟩
  | host a => exact .inr (.inl ⟨a, rfl, h⟩)
  | matcher =>
    simp only [runEvent, Host.Outcome.next.injEq] at h
    cases hb : s.status.mbusy <;> simp [hb] at h
    · exact .inr (.inr (.inr (.inr (.inr ⟨h.symm, .inl ⟨rfl, rfl⟩⟩))))
    · exact .inr (.inr (.inl ⟨rfl, rfl, h.symm⟩))
  | deliver c =>
    simp only [runEvent, Host.Outcome.next.injEq] at h
    cases hb : channelEnabled c s <;> simp [hb] at h
    · exact .inr (.inr (.inr (.inr (.inr ⟨h.symm, .inr ⟨c, rfl, hb⟩⟩))))
    · exact .inr (.inr (.inr (.inl ⟨c, rfl, hb, h.symm⟩)))
  | reset =>
    simp only [runEvent, Host.Outcome.next.injEq] at h
    exact .inr (.inr (.inr (.inr (.inl ⟨rfl, h.symm⟩))))

/-- Every agent's step answers a next state. -/
theorem runEvent_next (e : Event) (s : State) : ∃ t, runEvent e s = .next t := by
  cases e with
  | host a => exact hostAccess_next a s
  | tick _ => exact ⟨_, rfl⟩
  | matcher => exact ⟨_, rfl⟩
  | deliver _ => exact ⟨_, rfl⟩
  | reset => exact ⟨_, rfl⟩

end Sys2Proof.Machine
end

