-- ==== Sys2Proof/Tests/Slice0.lean ====
section
/-! SUPPORT. Own tests: the range checks of the parameters, every command's word, single steps with the results of the
vectors of 95_test_vectors.md, and for every obligation with hypotheses a state and operands that meet them. -/

namespace Sys2Proof.Tests

open Sys2Proof Sys2Proof.Machine Sys2Proof.Safety

/-! ### Small states -/

/-- `s` with `e` as the next event. -/
def put (e : Event) (s : State) : State := { s with agenda := [e] }

/-- The state after one step in which `e` happens. -/
def after (e : Event) (s : State) : State := (nextOf (step (put e s))).getD s

/-- A frame pending in bank 0, handed off and delivered, with these samples. -/
def pend (l : List Nat) : State :=
  { State.reset with
    flen := BitVec.ofNat 8 l.length
    status := { State.reset.status with ready := true }
    p := { State.reset.p with hold := true, hlen := l.length }
    mem := l.zipIdx.map fun c => (c.2, BitVec.ofNat 16 c.1) }

/-- F_REP of 95_test_vectors.md, pending. -/
def rep : State := pend [20001, 9000, 2250, 563]

/-- F_REP in flight: handed off, not delivered. -/
def flight : State := { rep with flen := 0, status := State.reset.status, ch := { h := true, r := false } }

/-- F_REP released, the release in flight. -/
def releasing : State := { rep with flen := 0, status := State.reset.status, ch := { h := false, r := true } }

/-- The operation `op` in progress. -/
def busy (op : MOp) (s : State) : State := startMatcher op s

/-- Capture enabled on both sides. -/
def enabled : State :=
  { State.reset with
    en := true
    status := { State.reset.status with pact := true }
    p := { State.reset.p with en := true } }

/-- `enabled`, in the state `q` at the level `l`, with `n` samples recorded in bank 0 and the timer at `t`. -/
def at' (q : PState) (l : Level) (n : Nat) (t : Dur) : State :=
  { enabled with
    p := { enabled.p with state := q, lev := l, len := n, timer := t }
    mem := (List.range n).map fun i => (i, 100#16) }

/-- `s` with a frame held in bank 0 by the consumer, length 2, capture in bank 1. -/
def held (s : State) : State := { s with p := { s.p with hold := true, hlen := 2, bank := 1 } }

/-- `s` in SINGLE mode. -/
def single (s : State) : State := { s with pcfg := { s.pcfg with bufmode := .single } }

/-- `s` with NOISE one microsecond above the reset value of GAP. -/
def noisy (s : State) : State := { s with pcfg := { s.pcfg with noise := 10001 } }

/-- `s` with another matcher configuration. -/
def cfg (f : MatcherCfg → MatcherCfg) (s : State) : State := { s with mcfg := f s.mcfg }

/-- A mark-length template: MARKONE 1200, MARKZERO 563, SPACEONE 600 (V-D35). -/
def markTpl (m : MatcherCfg) : MatcherCfg := { m with tplMarkone := 1200, tplMarkzero := 563, tplSpaceone := 600 }

/-- `markTpl` with a header. -/
def markHdr (m : MatcherCfg) : MatcherCfg := { markTpl m with tplHdrmark := 2400, tplHdrspace := 600 }

/-- The NEC timings without a length: header 9000, 4500; mark 563, spaces 1687, 563; STOP (95_test_vectors.md). -/
def necTpl (m : MatcherCfg) : MatcherCfg :=
  { m with
    tplHdrmark := 9000, tplHdrspace := 4500, tplMarkzero := 563, tplSpaceone := 1687, tplSpacezero := 563, stop := true }

/-- LIT_REP: the literal table of the repeat frame (95_test_vectors.md). -/
def litRep (m : MatcherCfg) : MatcherCfg := { m with litLen := 3, lit := [9000, 2250, 563, 0, 0, 0, 0, 0] }

/-- One access. -/
def readAt (a : BitVec 12) : Access := { write := false, addr := a, wdata := 0 }
def writeAt (a : BitVec 12) (w : Word) : Access := { write := true, addr := a, wdata := w }

/-! ### The parameters' ranges (R7): each check refuses an ill-formed value at both ends -/

theorem test_default_wf : Config.default.wf = true := by decide
theorem test_bounds_wf :
    ({ cap := 2, tickUs := 1, litMax := 1 } : Config).wf = true ∧
    ({ cap := 255, tickUs := 65535, litMax := 16 } : Config).wf = true := by decide
theorem test_cap_refused :
    ({ Config.default with cap := 1 } : Config).wf = false ∧ ({ Config.default with cap := 256 } : Config).wf = false := by
  decide
theorem test_tick_refused :
    ({ Config.default with tickUs := 0 } : Config).wf = false ∧
    ({ Config.default with tickUs := 65536 } : Config).wf = false := by decide
theorem test_lit_refused :
    ({ Config.default with litMax := 0 } : Config).wf = false ∧
    ({ Config.default with litMax := 17 } : Config).wf = false := by decide

/-! ### Command words, written out bit by bit from R80 (RSV = w[31:4], OPC = w[3:0]) and R81 -/

theorem test_word_nop : decodeWord 0b00000000000000000000000000000000#32 = .ok .nop := by decide
theorem test_word_resume : decodeWord 0b00000000000000000000000000000001#32 = .ok .resume := by decide
theorem test_word_match_dur : decodeWord 0b00000000000000000000000000000010#32 = .ok .matchDur := by decide
theorem test_word_decode : decodeWord 0b00000000000000000000000000000011#32 = .ok .decode := by decide
theorem test_word_match_lit : decodeWord 0b00000000000000000000000000000100#32 = .ok .matchLit := by decide
/-- V-B11 and V-B10. -/
theorem test_word_illegal :
    decodeWord 0b00000000000000000000000000000101#32 = .error .reservedOpcode ∧
    decodeWord 0b00000000000000000000000000001111#32 = .error .reservedOpcode ∧
    decodeWord 0b00000000000000000000000000010000#32 = .error .reservedBits ∧
    decodeWord 0b10000000000000000000000000000001#32 = .error .reservedBits := by decide
theorem test_table_word : decodeTableWord 32 3 = some .decode ∧ decodeTableWord 32 5 = none := by decide

/-! ### One step of each command (the vector is named) -/

/-- V-B12. -/
theorem test_nop_while_busy : after (cmd .nop) (busy .matchDur rep) = busy .matchDur rep := by decide
/-- V-H3. -/
theorem test_resume_releases :
    let t := after (cmd .resume) rep
    t.status.ready = false ∧ t.flen = 0 ∧ t.ch.r = true ∧ t.p.hold = true ∧ readReg (.frame 0) t = 0 := by decide
/-- V-H6. -/
theorem test_resume_in_flight : after (cmd .resume) flight = flight := by decide
/-- V-T2: 698 against 563 matches. -/
theorem test_match_dur_inside :
    readReg .resKind (after .matcher (busy .matchDur (cfg ({ · with mdObs := 698, mdExp := 563 }) State.reset))) = 0x01 := by
  decide
/-- V-T5: 709 against 563 does not; V-T23: no frame is needed. -/
theorem test_match_dur_outside :
    readReg .resKind (after .matcher (busy .matchDur (cfg ({ · with mdObs := 709, mdExp := 563 }) State.reset))) = 0x03 := by
  decide
/-- V-D37: both bits ONE, at the edges of its window. -/
theorem test_decode_mark_length :
    let t := after .matcher (busy .decode (cfg markTpl (pend [20001, 1500, 600, 901])))
    readReg .resKind t = 0x01 ∧ readReg .resValue t = 3 ∧ readReg .resInfo t = 0x00000200 := by decide
/-- V-D36. -/
theorem test_decode_outside :
    let t := after .matcher (busy .decode (cfg markTpl (pend [20001, 709, 600, 563])))
    readReg .resKind t = 0x43 ∧ readReg .resExp t = 563 ∧ readReg .resObs t = 709 ∧ readReg .resInfo t = 1 := by decide
/-- V-L1. -/
theorem test_match_lit_repeat :
    readReg .resKind (after .matcher (busy .matchLit (cfg litRep rep))) = 0x02 := by decide
/-- V-L5. -/
theorem test_match_lit_space :
    let t := after .matcher (busy .matchLit (cfg litRep (pend [20001, 9000, 3000, 563])))
    readReg .resKind t = 0x53 ∧ readReg .resExp t = 2250 ∧ readReg .resObs t = 3000 ∧ readReg .resInfo t = 2 := by decide

/-! ### One step of the other agents -/

/-- V-B13: BAD_CMD comes before BUSY_CMD. -/
theorem test_bad_cmd_while_busy :
    let t := after (wr .cmd 0x7) (busy .matchDur rep)
    readReg .errinfo t = 1 ∧ t.status.err = true ∧ t.resp.err = false := by decide
/-- V-B2 and V-B4. -/
theorem test_bus_errors :
    (after (rdAt 0x006) State.reset).resp = { rdata := 0, err := true } ∧
    (after (wrAt 0x0E0 1) State.reset).resp = { rdata := 0, err := true } := by decide
/-- V-B6. -/
theorem test_bias_stored : readReg .bias (after (wr .bias 0xFFFFFF9C) State.reset) = 0x0000FF9C := by decide
/-- V-B9. -/
theorem test_lit_range :
    let t := after (wr .litLen 9) State.reset
    readReg .errinfo t = 6 ∧ readReg .litLen t = 0 := by decide
/-- V-C19: the frame end and the next frame's start in one tick. -/
theorem test_end_and_start_in_one_tick :
    let t := after (.tick true) (at' .space .space 2 9999)
    t.p.hold = true ∧ t.p.hlen = 2 ∧ t.p.hbank = 0 ∧ t.p.state = .mark ∧ t.p.bank = 1 ∧ t.p.len = 1 ∧
      sample t 1 0 = 10000 := by decide
/-- V-H2 (its STATUS without PACT). -/
theorem test_delivery : readReg .status (after (.deliver .syncH) flight) = 0x11 ∧
    readReg .flen (after (.deliver .syncH) flight) = 4 := by decide
/-- R93, R313: WAITFRAME stays at its statement until READY reads 1, and a run has not ended before that. -/
theorem test_poll_waits :
    let b : Bench := { block := State.reset, todo := [waitFrame], stim := [], named := [] }
    runEnded b = false ∧ (benchStep (.host (stmtAccess waitFrame)) b).map (fun c => c.todo) = some [waitFrame] ∧
    (benchStep (.host (stmtAccess waitFrame)) { b with block := rep }).map (fun c => (c.todo, runEnded c)) =
      some ([], true) := by decide
/-- The last mark of V-C17 (R131), with CAP = 100: in a full frame it overwrites the last slot. -/
theorem test_full_frame_overwrites :
    let t := after (.tick false) (at' .mark .mark 100 399)
    t.p.len = 100 ∧ t.p.ovf = true ∧ t.p.state = .space ∧ sample t 0 99 = 400 := by decide
/-- R92, R94, R313: an RD names the word it read, and the stimulus is taken in order and has to be exhausted. -/
theorem test_read_and_stimulus :
    let b : Bench := { block := rep, todo := [.read (offsetOf .flen) "n"], stim := seg true 1 ++ seg false 1, named := [] }
    (benchStep (rd .flen) b).map (fun c => (c.todo, c.named, runEnded c)) = some ([], [("n", 4)], false) ∧
    (benchStep (.tick false) b).isNone = true ∧
    (benchStep (.tick true) b).map (fun c => c.stim) = some [false] := by decide
/-- A placed word is the next step's command: DECODE right after reset has no frame (R190). -/
theorem test_fetch_word :
    (nextOf (step (State.reset.withFetchWord 32 3))).map (readReg .errinfo) = some 2 ∧
    (nextOf (step (State.reset.withFetchWord 32 2))).map (fun t => t.mop) = some .matchDur := by decide

/-! ### States that meet the invariant -/

theorem inv_rep : Inv rep where
  par := by decide
  handshake := by decide
  producer := by decide
  shape := by decide
  banks := by decide
  pending := by decide
  matcher := by decide
  enable := by decide
  literal := by decide
  mem := by decide
  written := by decide
  result := by decide

theorem inv_flight : Inv flight where
  par := by decide
  handshake := by decide
  producer := by decide
  shape := by decide
  banks := by decide
  pending := by decide
  matcher := by decide
  enable := by decide
  literal := by decide
  mem := by decide
  written := by decide
  result := by decide

/-- `rep` with DECODE in progress and `e` as the next event. -/
def repBusy (e : Event) : State := put e (busy .decode rep)

theorem inv_repBusy (e : Event) : Inv (repBusy e) where
  par := inv_rep.par
  handshake := inv_rep.handshake
  producer := inv_rep.producer
  shape := inv_rep.shape
  banks := inv_rep.banks
  pending := inv_rep.pending
  matcher := by
    refine ⟨⟨nofun, nofun⟩, fun _ => rfl, fun _ => rfl⟩
  enable := inv_rep.enable
  literal := inv_rep.literal
  mem := inv_rep.mem
  written := inv_rep.written
  result := inv_rep.result

theorem inv_put {s : State} (h : Inv s) (e : Event) : Inv (put e s) :=
  ⟨h.par, h.handshake, h.producer, h.shape, h.banks, h.pending, h.matcher, h.enable, h.literal, h.mem, h.written, h.result⟩

/-- A step that happens. -/
theorem step_put (e : Event) (s : State) : ∃ t, step (put e s) = .next t := runEvent_next _ _

/-! ### Witnesses: commands -/

theorem witness_DecodeInvertsEncode : Instr.matchLit.wf = true ∧ decodeWord 0 = .ok .nop ∧ decodeWord 4 = .ok .matchLit := by
  decide
theorem witness_DecodeTotalByFields :
    (0x10 : Word).toNat / 16 ≠ 0 ∧ (0xFFFFFFFF : Word).toNat / 16 ≠ 0 ∧ (15 : Word).toNat / 16 = 0 ∧
    decodeWord 5 = .error .reservedOpcode ∧ decodeWord 0x10 = .error .reservedBits := by decide
theorem witness_StepRunsDecodedCommand :
    nextEvent (put (.host (commandAccess 4)) rep) = .host (commandAccess 4) ∧ decodeWord 4 = .ok .matchLit ∧
    decodeTableWord 32 4 = some .matchLit := by decide
theorem witness_IllegalWordRaisesBadCmd : (0x10 : Word).toNat / 16 ≠ 0 ∧ 5 ≤ (5 : Word).toNat % 16 := by decide
theorem witness_ResumeReleasesFrame :
    (rep.status.mbusy = false ∧ rep.status.ready = true) ∧
    (State.reset.status.mbusy = false ∧ State.reset.status.ready = false) ∧ (busy .decode rep).status.mbusy = true := by
  decide
theorem witness_CommandAcceptance :
    decodeWord 5 = .error .reservedOpcode ∧ decodeWord 0x10 = .error .reservedBits ∧ decodeWord 4 = .ok .matchLit ∧
    ((busy .decode rep).status.mbusy = true ∧ Instr.resume ≠ .nop) ∧
    (rep.status.mbusy = false ∧ rep.status.ready = true) ∧
    (State.reset.status.mbusy = false ∧ State.reset.status.ready = false) := by decide
/-- DECODE with no frame (ERR = 0), and RESET after an error. -/
theorem witness_ErrinfoHoldsFirstCause :
    (nextOf (step (put (cmd .decode) State.reset)) = some (after (cmd .decode) State.reset) ∧
      (after (cmd .decode) State.reset).errinfo ≠ State.reset.errinfo) ∧
    (let s := { State.reset with errinfo := .busyCmd }
     (after .reset s).errinfo ≠ s.errinfo) := by decide
theorem witness_CommandFrame :
    nextOf (exec .resume rep) = some (releaseFrame rep) ∧ nextOf (exec .decode rep) = some (startMatcher .decode rep) := by
  decide
theorem witness_MatchDurResult : (busy .decode rep).status.mbusy = true ∧ State.reset.status.mbusy = false := by decide

/-! ### Witnesses: tolerance and matching -/

theorem witness_ToleranceProperties : 100 ≤ 100 ∧ 563 ≤ 703 := by decide
theorem witness_LitMatchFirstFailure :
    frameLen rep ≠ litCount rep + 1 ∧
    (let s := cfg litRep (pend [20001, 6000, 2250, 563])
     frameLen s = litCount s + 1 ∧ 0 < litCount s ∧ tolHolds s (frameSlot s 1) (litEntry s 0) = false) ∧
    (let s := cfg litRep (pend [20001, 9000, 2250, 900])
     frameLen s = litCount s + 1 ∧ 2 < litCount s ∧
     (∀ j < 2, tolHolds s (frameSlot s (j + 1)) (litEntry s j) = true) ∧
     tolHolds s (frameSlot s 3) (litEntry s 2) = false) := by decide
/-- A frame that fits and one that fails, with each REASON the generic decode reports. -/
theorem witness_GenericMatchesExactly :
    generic (cfg necTpl (pend [20001, 9000, 4500, 563])) = .matched 0 0 ∧
    generic (cfg markTpl (pend [20001, 1500, 600, 901])) = .matched 3 2 := by decide
theorem witness_GenericFailureGenuine :
    generic (cfg (fun m => { m with tplRawlen := 68 }) rep) = .noMatch .rawCount 0 68 4 ∧
    generic (cfg necTpl (pend [20001])) = .noMatch .rawCount 1 0 1 ∧
    generic (cfg necTpl (pend [20001, 9000])) = .noMatch .rawCount 2 0 2 ∧
    generic (cfg necTpl (pend [20001, 9000, 4500])) = .noMatch .rawCount 3 0 3 ∧
    generic (cfg necTpl (pend [20001, 6749, 4500, 563])) = .noMatch .headerMark 1 9000 6749 ∧
    generic (cfg necTpl (pend [20001, 9000, 3000, 563])) = .noMatch .headerSpace 2 4500 3000 ∧
    generic (cfg necTpl (pend [20001, 9000, 4500, 900, 563, 563])) = .noMatch .dataMark 3 563 900 ∧
    generic (cfg necTpl (pend [20001, 9000, 4500, 563, 709, 563])) = .noMatch .dataSpace 4 563 709 ∧
    generic (cfg necTpl (pend [20001, 9000, 4500, 900])) = .noMatch .dataMark 3 563 900 ∧
    generic (cfg necTpl (pend [20001, 9000, 4500, 563, 709, 900])) = .noMatch .dataSpace 4 563 709 := by decide
theorem witness_SpaceLengthFrameDecodes :
    let s := cfg necTpl (pend [20001, 9000, 4500, 563, 1687, 563, 563, 563])
    let bits := [true, false]
    s.mcfg.tplMarkone = 0 ∧ s.mcfg.tplHdrmark ≠ 0 ∧ s.mcfg.tplHdrspace ≠ 0 ∧ s.mcfg.stop = true ∧
    frameLen s = 4 + 2 * bits.length ∧ rawLen s = 0 ∧
    tolHolds s (frameSlot s 1) s.mcfg.tplHdrmark = true ∧ tolHolds s (frameSlot s 2) s.mcfg.tplHdrspace = true ∧
    (∀ k, (h : k < 2) →
      tolHolds s (frameSlot s (3 + 2 * k)) s.mcfg.tplMarkzero = true ∧
      tolHolds s (frameSlot s (4 + 2 * k)) s.mcfg.tplSpaceone = bits[k] ∧
      (bits[k] = false → tolHolds s (frameSlot s (4 + 2 * k)) s.mcfg.tplSpacezero = true)) ∧
    tolHolds s (frameSlot s (3 + 2 * bits.length)) s.mcfg.tplMarkzero = true := by decide
/-- Without a stop mark, and with one that is in tolerance of TPL_MARKONE and one that is only in tolerance of
TPL_MARKZERO. -/
theorem witness_MarkLengthFrameDecodes :
    let bits := [true, false]
    let fits (s : State) : Prop :=
      s.mcfg.tplMarkone ≠ 0 ∧ s.mcfg.tplHdrmark ≠ 0 ∧ s.mcfg.tplHdrspace ≠ 0 ∧ rawLen s = 0 ∧
      tolHolds s (frameSlot s 1) s.mcfg.tplHdrmark = true ∧ tolHolds s (frameSlot s 2) s.mcfg.tplHdrspace = true ∧
      (∀ k, (h : k < 2) →
        tolHolds s (frameSlot s (3 + 2 * k)) s.mcfg.tplMarkone = bits[k] ∧
        (bits[k] = false → tolHolds s (frameSlot s (3 + 2 * k)) s.mcfg.tplMarkzero = true))
    (let s := cfg markHdr (pend [20001, 2400, 600, 1200, 600, 563])
     fits s ∧ s.mcfg.stop = false ∧ bits ≠ [] ∧ frameLen s = 2 + 2 * bits.length ∧
     ∀ k < 1, tolHolds s (frameSlot s (4 + 2 * k)) s.mcfg.tplSpaceone = true) ∧
    (∀ x ∈ [1200, 563],
      let s := cfg (fun m => { markHdr m with stop := true }) (pend [20001, 2400, 600, 1200, 600, 563, 600, x])
      fits s ∧ s.mcfg.stop = true ∧ frameLen s = 4 + 2 * bits.length ∧
      (∀ k < 2, tolHolds s (frameSlot s (4 + 2 * k)) s.mcfg.tplSpaceone = true) ∧
      (tolHolds s (frameSlot s 7) s.mcfg.tplMarkone = true ↔ x = 1200)) := by decide
theorem witness_WriteResultTable : 255 < 256 ∧ (busy .decode rep).mop = .decode ∧ (busy .matchLit rep).mop = .matchLit := by
  decide
theorem witness_FrameCommandsReport :
    (busy .decode rep).status.mbusy = true ∧ (State.reset.status.mbusy = false ∧ State.reset.status.ready = false) ∧
    (rep.status.mbusy = false ∧ rep.status.ready = true) ∧ (litCount rep = 0 ∧ 2 ≤ frameLen rep) := by decide
theorem witness_ResultsChangeOnlyAtCompletion :
    nextOf (step (repBusy .matcher)) = some (after .matcher (repBusy .matcher)) ∧
    (after .matcher (repBusy .matcher)).res ≠ (repBusy .matcher).res := by decide
theorem witness_OperandsStableWhileBusy :
    Inv (repBusy (.tick true)) ∧ (repBusy (.tick true)).status.mbusy = true ∧
    (∃ t, step (repBusy (.tick true)) = .next t) ∧ nextEvent (repBusy (.tick true)) ≠ .matcher ∧
    nextEvent (repBusy (.tick true)) ≠ .reset :=
  ⟨inv_repBusy _, rfl, step_put _ _, by decide, by decide⟩

/-! ### Witnesses: capture -/

theorem witness_DisabledTickTracksLevel : State.reset.p.en = false := by decide
theorem witness_RecordAppendsOrFreezes :
    (2 ≤ enabled.par.cap ∧ enabled.par.cap ≤ 255 ∧ (at' .mark .mark 99 0).p.len < enabled.par.cap) ∧
    (at' .mark .mark 100 0).p.len = enabled.par.cap ∧ 0 ≠ slotKey 0 (recordSlot (at' .mark .mark 99 0)) := by decide
/-- elapsed is exactly GAP; with nothing held, and with a frame held in DOUBLE mode. -/
theorem witness_FrameStartsAfterGap :
    (let s := at' .idle .space 0 9999
     s.p.en = true ∧ s.p.state = .idle ∧ s.p.lev = .space ∧ s.p.len = 0 ∧ 1 ≤ s.par.cap ∧
     s.pcfg.noise.toNat ≤ elapsed s ∧ s.pcfg.gap.toNat = elapsed s ∧ ¬ (s.pcfg.bufmode = .single ∧ s.p.hold = true)) ∧
    (let s := held (at' .idle .space 0 9999)
     s.p.hold = true ∧ s.pcfg.gap.toNat = elapsed s ∧ ¬ (s.pcfg.bufmode = .single ∧ s.p.hold = true)) := by decide
theorem witness_BlockedStartCountsLost :
    let s := single (held (at' .idle .space 0 9999))
    s.p.en = true ∧ s.p.state = .idle ∧ s.p.lev = .space ∧ s.pcfg.noise.toNat ≤ elapsed s ∧
    s.pcfg.gap.toNat ≤ elapsed s ∧ s.pcfg.bufmode = .single ∧ s.p.hold = true := by decide
/-- A change to SPACE, and a change to MARK one microsecond before GAP. -/
theorem witness_IdleChangeRetimes :
    (let s := at' .idle .mark 0 49
     s.p.en = true ∧ s.p.state = .idle ∧ levelOf false ≠ s.p.lev ∧ s.pcfg.noise.toNat = elapsed s) ∧
    (let s := at' .idle .space 0 9998
     s.p.en = true ∧ s.p.state = .idle ∧ levelOf true ≠ s.p.lev ∧ s.pcfg.noise.toNat ≤ elapsed s ∧
     elapsed s + 1 = s.pcfg.gap.toNat) := by decide
/-- A mark of exactly NOISE, and a space one microsecond short of GAP, each with one slot of room and with none. -/
theorem witness_MarksAndSpacesRecorded :
    (∀ n ∈ [99, 100],
      let s := at' .mark .mark n 49
      s.p.en = true ∧ s.pcfg.noise.toNat = elapsed s ∧ s.p.state = .mark ∧ s.p.lev = .mark) ∧
    (∀ n ∈ [99, 100],
      let s := at' .space .space n 9998
      s.p.en = true ∧ s.pcfg.noise.toNat ≤ elapsed s ∧ s.p.state = .space ∧ s.p.lev = .space ∧
      elapsed s + 1 = s.pcfg.gap.toNat) ∧
    (at' .mark .mark 99 49).p.len < enabled.par.cap ∧ (at' .mark .mark 100 49).p.len = enabled.par.cap ∧
    (at' .space .space 99 9998).p.len < enabled.par.cap ∧ (at' .space .space 100 9998).p.len = enabled.par.cap := by decide
/-- A change one microsecond before NOISE; and no change, in IDLE at either level, in MARK, and in SPACE one microsecond
before GAP. -/
theorem witness_EarlyChangeDiscarded :
    (let s := at' .mark .mark 1 48
     s.p.en = true ∧ ¬ (s.p.state = .space ∧ s.pcfg.gap.toNat ≤ elapsed s) ∧ levelOf false ≠ s.p.lev ∧
     elapsed s + 1 = s.pcfg.noise.toNat) ∧
    (∀ c ∈ [(PState.idle, false, 65535#16), (.idle, true, 0), (.mark, true, 65535), (.space, false, 9998)],
      let s := at' c.1 (levelOf c.2.1) 2 c.2.2
      s.p.en = true ∧ ¬ (s.p.state = .space ∧ s.pcfg.gap.toNat ≤ elapsed s) ∧ levelOf c.2.1 = s.p.lev) := by decide
/-- A frame end due at a tick, in DOUBLE and in SINGLE mode, at or above NOISE and (NOISE one above the elapsed GAP)
below it. -/
theorem witness_FrameEndHandsOff :
    (let s := at' .space .space 2 9999
     s.p.en = true ∧ s.p.state = .space ∧ s.p.lev = .space ∧ s.pcfg.gap.toNat = elapsed s ∧ s.p.hold = false ∧
     s.pcfg.noise.toNat ≤ elapsed s ∧ s.pcfg.bufmode = .double ∧ 1 ≤ s.par.cap ∧ s.par.cap ≤ 255 ∧
     s.p.len ≤ s.par.cap) ∧
    (let s := single (at' .space .space 2 9999)
     s.p.en = true ∧ s.p.state = .space ∧ s.p.lev = .space ∧ s.pcfg.gap.toNat = elapsed s ∧ s.p.hold = false ∧
     s.pcfg.noise.toNat ≤ elapsed s ∧ s.pcfg.bufmode = .single) ∧
    (let s := noisy (at' .space .space 2 9999)
     s.p.en = true ∧ s.p.state = .space ∧ s.p.lev = .space ∧ s.pcfg.gap.toNat = elapsed s ∧ s.p.hold = false ∧
     elapsed s + 1 = s.pcfg.noise.toNat) := by decide
theorem witness_FrameEndWhileHeldDrops :
    (let s := held (at' .space .space 2 9999)
     s.p.en = true ∧ s.p.state = .space ∧ s.p.lev = .space ∧ s.pcfg.gap.toNat = elapsed s ∧ s.p.hold = true ∧
     s.pcfg.noise.toNat ≤ elapsed s ∧ s.pcfg.bufmode = .double ∧ 1 ≤ s.par.cap ∧ s.p.hlen ≤ s.par.cap ∧
     s.par.cap ≤ 255) ∧
    (let s := single (held (at' .space .space 2 9999))
     s.pcfg.gap.toNat = elapsed s ∧ s.p.hold = true ∧ s.pcfg.noise.toNat ≤ elapsed s ∧ s.pcfg.bufmode = .single) ∧
    (let s := noisy (held (at' .space .space 2 9999))
     s.pcfg.gap.toNat = elapsed s ∧ s.p.hold = true ∧ elapsed s + 1 = s.pcfg.noise.toNat) := by decide
theorem witness_MarkNeverTimesOut :
    let s := at' .mark .mark 1 65535
    s.p.en = true ∧ s.p.state = .mark ∧ s.p.lev = .mark := by decide
theorem witness_MarkDurationMeasured :
    let s := at' .mark .mark 1 0
    s.p.en = true ∧ s.p.state = .mark ∧ s.p.lev = .mark ∧ s.p.timer = 0 ∧
    s.pcfg.noise.toNat = min ((49 + 1) * s.par.tickUs) 65535 ∧ s.p.len < s.par.cap ∧ s.par.cap ≤ 255 := by decide
/-- A tick in MARK and one in IDLE, with each way of storing nothing and a key that is not stored to. -/
theorem witness_TickFrame :
    (∃ t, runEvent (.tick false) (at' .mark .mark 1 49) = .next t) ∧
    levelOf true = (at' .mark .mark 1 49).p.lev ∧
    elapsed (at' .mark .mark 1 48) < (at' .mark .mark 1 48).pcfg.noise.toNat ∧
    State.reset.p.en = false ∧
    (let s := frameEnd (elapsed (at' .mark .mark 1 49)) (at' .mark .mark 1 49)
     s.p.state ≠ .idle ∧ 0 ≠ slotKey s.p.bank (recordSlot s)) ∧
    (let s := frameEnd (elapsed (at' .idle .space 0 9999)) (at' .idle .space 0 9999)
     s.p.state = .idle ∧ 1 ≠ slotKey (selectBank s).p.bank (recordSlot (selectBank s))) :=
  ⟨⟨_, rfl⟩, by decide, by decide, by decide, by decide, by decide⟩

/-! ### Witnesses: channels -/

theorem witness_HandoffDelivered : flight.ch.h = true := by decide
theorem witness_ReleaseDelivered : releasing.ch.r = true := by decide
theorem witness_EnableDelivered :
    (let s := { State.reset with en := true }
     s.p.en ≠ s.en ∧ s.en = true) ∧
    (let s := { at' .mark .mark 1 0 with en := false }
     s.p.en ≠ s.en ∧ s.en = false) := by decide
theorem witness_LevelChannelsCopy :
    (let s := { State.reset with p := { State.reset.p with en := true, lost := 255 } }
     s.status.pact ≠ s.p.en ∧ s.status.lostcnt ≠ s.p.lost) ∧
    (∀ c ∈ [Channel.syncH, .syncR, .syncEn, .syncPact, .syncLost], channelEnabled c State.reset = false) := by decide
theorem witness_DeliveredFrameReadable : Inv flight ∧ flight.ch.h = true := ⟨inv_flight, rfl⟩

/-! ### Witnesses: invariants and whole-machine rules -/

theorem witness_ResetMeetsInv :
    ({ cap := 2, tickUs := 1, litMax := 1 } : Config).wf = true ∧
    ({ cap := 255, tickUs := 65535, litMax := 16 } : Config).wf = true := by decide
theorem witness_StepKeepsInv : Inv (put (.tick true) rep) ∧ ∃ t, step (put (.tick true) rep) = .next t :=
  ⟨inv_put inv_rep _, step_put _ _⟩
/-- A step that keeps the frame, one that releases it, and RESET. -/
theorem witness_PendingFrameStable :
    (∀ e, Inv (put e rep) ∧ (put e rep).status.ready = true ∧ ∃ t, step (put e rep) = .next t) ∧
    (after (.tick true) rep).status.ready = true ∧ (after (cmd .resume) rep).status.ready = false ∧
    nextEvent (put .reset rep) = .reset :=
  ⟨fun e => ⟨inv_put inv_rep e, rfl, step_put _ _⟩, by decide, by decide, by decide⟩
theorem witness_HeldBankUntouched :
    (Inv (put (.tick true) rep) ∧ (put (.tick true) rep).status.ready = true ∧ ∃ t, step (put (.tick true) rep) = .next t) ∧
    (Inv (put (.tick true) flight) ∧ (put (.tick true) flight).ch.h = true) :=
  ⟨⟨inv_put inv_rep _, rfl, step_put _ _⟩, inv_put inv_flight _, rfl⟩
theorem witness_LostCountsByOne : Inv (put .reset rep) ∧ ∃ t, step (put .reset rep) = .next t :=
  ⟨inv_put inv_rep _, step_put _ _⟩
/-- Each STATUS bit changing, clause by clause. -/
theorem witness_FlagWriters :
    (flight.status.ready = false ∧ (after (.deliver .syncH) flight).status.ready = true) ∧
    (rep.status.ready = true ∧ (after (cmd .resume) rep).status.ready = false) ∧
    (let s := { flight with p := { flight.p with hovf := true } }
     s.status.fovf = false ∧ (after (.deliver .syncH) s).status.fovf = true) ∧
    (let s := { rep with status := { rep.status with fovf := true } }
     s.status.fovf = true ∧ (after (cmd .resume) s).status.fovf = false) ∧
    (let s := { flight with status := { flight.status with fovf := true } }
     s.status.fovf = true ∧ (after (.deliver .syncH) s).status.fovf = false) ∧
    ((after (.deliver .syncPact) { State.reset with p := { State.reset.p with en := true } }).status.pact ≠ false) ∧
    ((after (.deliver .syncLost) { State.reset with p := { State.reset.p with lost := 1 } }).status.lostcnt ≠ 0) ∧
    (flight.status.frmev = false ∧ (after (.deliver .syncH) flight).status.frmev = true) ∧
    ((busy .decode rep).status.mdone = false ∧ (after .matcher (busy .decode rep)).status.mdone = true) ∧
    ((busy .decode rep).status.mbusy = true ∧ (after .matcher (busy .decode rep)).status.mbusy = false) ∧
    (rep.status.mbusy = false ∧ (after (cmd .matchDur) rep).status.mbusy = true) ∧
    (let s := { State.reset with status := { State.reset.status with frmev := true, mdone := true, err := true } }
     (after (clr 0x70) s).status = State.reset.status) ∧
    (State.reset.status.err = false ∧ (after (cmd .decode) State.reset).status.err = true) ∧
    nextEvent (put (cmd .resume) rep) ≠ .reset := by decide
theorem witness_DomainsMeetOnlyInChannels :
    (∃ t, runEvent (.host (readAt 0)) rep = .next t) ∧ ∃ t, runEvent (.tick true) rep = .next t :=
  ⟨runEvent_next _ _, runEvent_next _ _⟩

/-- MATCH_DUR in progress, nothing else pending, and no statement or stimulus left. -/
def fairStart : Bench := { block := busy .matchDur State.reset, todo := [], stim := [], named := [] }

/-- The completion, and then nothing: the run has ended. -/
def fairSched (n : Nat) : Option Event := if n = 0 then some .matcher else none

def fairRun (n : Nat) : Bench := if n = 0 then fairStart else { fairStart with block := matcherStep fairStart.block }

/-- A program's run that ends (R313). -/
theorem programRun_fair : ProgramRun fairSched fairRun := by
  have quiet : ∀ n, fairRun (n + 1) = { fairStart with block := matcherStep fairStart.block } := fun n => by simp [fairRun]
  have idle : ∀ n, fairSched (n + 1) = none := fun n => by simp [fairSched]
  refine ⟨fun n => ?_, fun n => ?_, fun c n h => ?_, fun n h => ?_, .inl ⟨1, by decide, fun m h => ?_⟩⟩
  · rcases n with _ | n
    · rfl
    · rw [idle, quiet, quiet]
  · rcases n with _ | n
    · rfl
    · rw [idle]
      simp only [quiet]
  · have := h (n + 1) (by omega)
    simp only [quiet] at this
    cases c <;> exact absurd this (by decide)
  · have := h (n + 1) (by omega)
    simp only [quiet] at this
    exact absurd this (by decide)
  · obtain ⟨k, rfl⟩ : ∃ k, m = k + 1 := ⟨m - 1, by omega⟩
    exact idle k

theorem witness_FairRunsCompleteMatching :
    FairRun (fun n => runEnded (fairRun n) = true) fairSched (fun n => (fairRun n).block) ∧
    (fairRun 0).block.status.mbusy = true := ⟨programRun_fair.2, rfl⟩

/-! ### Witnesses: the register port -/

/-- Misaligned; the ends of every unmapped range (LIT_MAX = 8); and the mapped neighbours of each. -/
theorem witness_BusErrorExactly :
    State.reset.par.wf = true ∧
    (∀ a, ∃ t, runEvent (.host a) State.reset = .next t) ∧
    (readAt 0x001).addr.toNat % 4 ≠ 0 ∧
    (∀ a ∈ [0x03C, 0x068, 0x06C, 0x084, 0x0BC, 0x0E0, 0x3FC, 0x800, 0xFFC], a % 4 = 0 ∧ regAt 8 a = none) ∧
    (∀ a ∈ [0x000, 0x038, 0x040, 0x064, 0x070, 0x080, 0x0C0, 0x0DC, 0x400, 0x7FC], a % 4 = 0 ∧ (regAt 8 a).isSome = true) :=
  ⟨by decide, fun _ => runEvent_next _ _, by decide, by decide, by decide⟩
theorem witness_ReadsHaveNoEffect :
    ((readAt 0x0DC).write = false ∧ AccessTo rep (readAt 0x0DC) (.lit 7)) ∧
    AccessTo rep (readAt 0x7FC) (.frame 255) ∧ AccessTo rep (readAt 0) .id := by decide
theorem witness_AcceptedWritesReadBack :
    ((writeAt 0x00C 0x70).write = true ∧ AccessTo rep (writeAt 0x00C 0x70) .irqen ∧ writeRule .irqen = .irqen) ∧
    (AccessTo State.reset (writeAt 0x004 1) .ctrl ∧ writeRule .ctrl = .ctrl ∧ State.reset.en = State.reset.status.pact) ∧
    (AccessTo State.reset (writeAt 0x01C 1) .cfg ∧ writeRule .cfg = .pcfg ∧ State.reset.en = false ∧
      State.reset.status.pact = false ∧ State.reset.status.ready = false) ∧
    (AccessTo State.reset (writeAt 0x064 8) .litLen ∧ writeRule .litLen = .mcfg ∧ State.reset.status.mbusy = false ∧
      (8 : Word).toNat % 32 = State.reset.par.litMax ∧ State.reset.mcfg.lit.length = State.reset.par.litMax) ∧
    (AccessTo State.reset (writeAt 0x0DC 5) (.lit 7) ∧ writeRule (.lit 7) = .mcfg) := by decide
theorem witness_LockedWritesRefused :
    ((writeAt 0x024 1).write = true ∧ AccessTo enabled (writeAt 0x024 1) .gap ∧
      ¬ (enabled.en = false ∧ enabled.status.pact = false ∧ enabled.status.ready = false)) ∧
    (AccessTo (busy .decode rep) (writeAt 0x054 1) .tplMarkzero ∧ writeRule .tplMarkzero = .mcfg ∧
      (busy .decode rep).status.mbusy = true) ∧
    (AccessTo State.reset (writeAt 0x064 9) .litLen ∧ State.reset.status.mbusy = false ∧
      State.reset.par.litMax + 1 = (9 : Word).toNat % 32) := by decide
theorem witness_ControlWriteGuarded :
    (let s := { State.reset with en := true }
     let a := writeAt 0x004 0
     a.write = true ∧ a.addr = 0x004 ∧ a.wdata.getLsbD 0 ≠ s.en ∧ s.en ≠ s.status.pact) ∧
    (let s := { State.reset with en := true }
     (1 : Word).getLsbD 0 = s.en) ∧
    State.reset.en = State.reset.status.pact := by decide
theorem witness_StatusWriteClears : (writeAt 0x008 0x70).write = true ∧ (writeAt 0x008 0x70).addr = 0x008 := by decide
theorem witness_InterruptOutput : (writeAt 0x00C 0x70).write = true ∧ (writeAt 0x00C 0x70).addr = 0x00C := by decide
theorem witness_ReadOnlyWritesIgnored :
    ((writeAt 0x014 5).write = true ∧
      (writeAt 0x014 5).addr.toNat = regOffset .flen ∧ rep.par.litMax ≤ 16) ∧
    (writeAt 0x7FC 1).addr.toNat = regOffset (.frame 255) := by decide

end Sys2Proof.Tests
end

section
/-! PROOFS. The obligations of 00_scope.md. -/

namespace Sys2Proof.Proofs
open Sys2Proof.Machine

/-- Settles O49: a step is the agent's step of the event the environment chose, and every event answers a next state
(`runEvent_next`). -/
theorem machineNeverStops : Obligations.MachineNeverStops := by
  unfold Obligations.MachineNeverStops step
  intro s
  exact runEvent_next (nextEvent s) (takeEvent s)

end Sys2Proof.Proofs
end

section
/-! PROOFS. The obligations of 10_state.md. -/

namespace Sys2Proof.Proofs
open Sys2Proof.Machine

/-! ### The register map (R20) and reads (R221) -/

/-- Settles O52: the map is the model's own table, row by row, and a read of a register is `hostAccess_read`. -/
theorem readsHaveNoEffect : Obligations.ReadsHaveNoEffect := by
  unfold Obligations.ReadsHaveNoEffect
  refine ⟨by decide, fun _ => rfl, fun _ => rfl, fun r => ?_, fun s a r hw ha => hostAccess_read ha hw⟩
  cases r
  case lit k => exact .inr (.inl ⟨k, rfl⟩)
  case frame i => exact .inr (.inr ⟨i, rfl⟩)
  all_goals exact .inl (by decide)

/-! ### Command words -/

/-- An accepted word is its command's encoding (R82 read backwards). -/
theorem encode_eq_of_decodeWord {w : Word} {i : Instr} (h : decodeWord w = .ok i) : encode i = w := by
  unfold decodeWord at h
  split at h
  · cases h
  · next hrsv =>
    have hlow : w.toNat / 16 = 0 := by
      have := congrArg BitVec.toNat (not_not.mp hrsv)
      simp [rsvOf, Nat.shiftRight_eq_div_pow] at this
      omega
    have hopc : (opcOf w).toNat = w.toNat % 16 := by simp [opcOf]
    split at h
    case h_6 => cases h
    all_goals
      next hcode =>
        cases h
        rw [hopc] at hcode
        refine BitVec.eq_of_toNat_eq ?_
        simp [encode]
        omega

/-- Only the matcher commands raise MBUSY. -/
theorem exec_raises_mbusy {i : Instr} {s t : State} (h : exec i s = .next t) (h0 : s.status.mbusy = false)
    (h1 : t.status.mbusy = true) : i = .matchDur ∨ i = .decode ∨ i = .matchLit := by
  cases i
  case nop =>
    cases h
    simp_all
  case resume =>
    rcases execResume_cases h with ⟨-, rfl⟩ | ⟨-, -, rfl⟩ | ⟨-, -, rfl⟩ <;> simp_all
  all_goals simp

/-! ### What one step can do to STATUS -/

/-- The W1C clear reaches the event flags only (R225). -/
@[simp] theorem clearEvents_fields (w : Word) (u : Status) :
    (clearEvents w u).ready = u.ready ∧ (clearEvents w u).fovf = u.fovf ∧ (clearEvents w u).pact = u.pact ∧
    (clearEvents w u).mbusy = u.mbusy ∧ (clearEvents w u).frmev = (u.frmev && !w.getLsbD 4) ∧
    (clearEvents w u).mdone = (u.mdone && !w.getLsbD 5) ∧ (clearEvents w u).err = (u.err && !w.getLsbD 6) ∧
    (clearEvents w u).lostcnt = u.lostcnt := by
  simp [clearEvents]

/-- The STATUS that event `e`, RESET apart, can leave of the STATUS `u`, with the producer at `p` and the channels at
`ch`: one constructor for each rule that writes STATUS (R23, R52). -/
inductive StatusEffect (e : Event) (p : Producer) (ch : Chan) (u : Status) : Status → Prop where
  /-- No rule writes STATUS. -/
  | kept : StatusEffect e p ch u u
  /-- A refused write (R261). -/
  | refused (a : Access) (he : e = .host a) (hw : a.write = true) : StatusEffect e p ch u { u with err := true }
  /-- A STATUS write (R225). -/
  | cleared (a : Access) (he : e = .host a) (hw : a.write = true) (ha : a.addr = 0x008) :
      StatusEffect e p ch u (clearEvents a.wdata u)
  /-- RESUME of a pending frame (R160). -/
  | released (he : e = .host (commandAccess (encode .resume))) (hb : u.mbusy = false) (hr : u.ready = true) :
      StatusEffect e p ch u { u with ready := false, fovf := false }
  /-- A matcher command accepted (R227). -/
  | started (i : Instr) (hi : i = .matchDur ∨ i = .decode ∨ i = .matchLit)
      (he : e = .host (commandAccess (encode i))) : StatusEffect e p ch u { u with mbusy := true }
  /-- The matcher's completion (R205). -/
  | completed (he : e = .matcher) (hb : u.mbusy = true) :
      StatusEffect e p ch u { u with mbusy := false, mdone := true }
  /-- deliver(SYNC_H) (R158). -/
  | frameDelivered (he : e = .deliver .syncH) (hc : ch.h = true) :
      StatusEffect e p ch u { u with fovf := p.hovf, ready := true, frmev := true }
  /-- deliver(SYNC_PACT) (R171). -/
  | pactDelivered (he : e = .deliver .syncPact) : StatusEffect e p ch u { u with pact := p.en }
  /-- deliver(SYNC_LOST) (R172). -/
  | lostDelivered (he : e = .deliver .syncLost) : StatusEffect e p ch u { u with lostcnt := p.lost }

theorem issueCommand_statusEffect {w : Word} {s t : State} (h : issueCommand w s = .next t) :
    StatusEffect (.host (commandAccess w)) s.p s.ch s.status t.status := by
  unfold issueCommand at h
  split at h
  · next i hi =>
    obtain rfl := encode_eq_of_decodeWord hi
    rcases exec_cases h with ⟨c, rfl⟩ | rfl | ⟨hb, hr, rfl, rfl⟩ | ⟨op, hb, -, -, rfl⟩
    · simpa using .refused _ rfl rfl
    · exact .kept
    · simpa using .released rfl hb hr
    · simpa using .started i (exec_raises_mbusy h hb (by simp)) rfl
  · cases h
    simpa using .refused _ rfl rfl

theorem writeCtrl_status (w : Word) (s : State) :
    (writeCtrl w s).status = s.status ∨ (writeCtrl w s).status = { s.status with err := true } := by
  unfold writeCtrl
  split <;> simp

theorem writePcfg_status (r : Reg) (w : Word) (s : State) :
    (writePcfg r w s).status = s.status ∨ (writePcfg r w s).status = { s.status with err := true } := by
  unfold writePcfg
  split <;> simp

theorem writeMcfg_status (r : Reg) (w : Word) (s : State) :
    (writeMcfg r w s).status = s.status ∨ (writeMcfg r w s).status = { s.status with err := true } := by
  unfold writeMcfg
  split
  · simp
  · split <;> simp

/-- STATUS after a write that either stores outside STATUS or is refused. -/
theorem StatusEffect.of_kept_or_refused {a : Access} {p : Producer} {ch : Chan} {u v : Status} (hw : a.write = true)
    (h : v = u ∨ v = { u with err := true }) : StatusEffect (.host a) p ch u v := by
  rcases h with rfl | rfl
  · exact .kept
  · exact .refused a rfl hw

theorem writeReg_statusEffect {r : Reg} {a : Access} {s t : State} (hw : a.write = true)
    (ha : regOffset r = a.addr.toNat) (h : writeReg r a.wdata s = .next t) :
    StatusEffect (.host a) s.p s.ch s.status t.status := by
  unfold writeReg at h
  cases hrule : writeRule r <;> rw [hrule] at h
  case cmd =>
    obtain rfl : r = .cmd := by cases r <;> simp_all [writeRule]
    have hcmd : a = commandAccess a.wdata := by
      cases a
      simp_all [commandAccess, regOffset]
    rw [hcmd]
    exact issueCommand_statusEffect h
  all_goals cases h
  case readOnly => exact .kept
  case ctrl => exact .of_kept_or_refused hw (writeCtrl_status _ _)
  case status =>
    obtain rfl : r = .status := by cases r <;> simp_all [writeRule]
    exact .cleared a rfl hw (BitVec.eq_of_toNat_eq ha.symm)
  case irqen => exact .kept
  case pcfg => exact .of_kept_or_refused hw (writePcfg_status _ _ _)
  case mcfg => exact .of_kept_or_refused hw (writeMcfg_status _ _ _)

theorem hostAccess_statusEffect {a : Access} {s t : State} (h : hostAccess a s = .next t) :
    StatusEffect (.host a) s.p s.ch s.status t.status := by
  unfold hostAccess at h
  split at h
  · cases h
    exact .kept
  · next halign =>
    split at h
    · cases h
      exact .kept
    · next r hr =>
      split at h
      · next hw => simpa using writeReg_statusEffect hw (regOffset_of_regAt (not_not.mp halign) hr) h
      · cases h
        exact .kept

theorem deliver_statusEffect {c : Channel} {s : State} (h : channelEnabled c s = true) :
    StatusEffect (.deliver c) s.p s.ch s.status (deliver c s).status := by
  cases c
  case syncH => exact .frameDelivered rfl h
  case syncR => exact .kept
  case syncEn =>
    have hkeep : (deliverEn s).status = s.status := by
      unfold deliverEn
      split <;> rfl
    simpa [deliver, hkeep] using .kept
  case syncPact => exact .pactDelivered rfl
  case syncLost => exact .lostDelivered rfl

theorem runEvent_statusEffect {e : Event} {s t : State} (h : runEvent e s = .next t) (he : e ≠ .reset) :
    StatusEffect e s.p s.ch s.status t.status := by
  rcases runEvent_cases h with ⟨m, rfl, rfl⟩ | ⟨a, rfl, ha⟩ | ⟨rfl, hb, rfl⟩ | ⟨c, rfl, hc, rfl⟩ | ⟨hreset, -⟩ | ⟨rfl, -⟩
  · simpa using .kept
  · exact hostAccess_statusEffect ha
  · exact .completed rfl hb
  · exact deliver_statusEffect hc
  · exact absurd hreset he
  · exact .kept

/-- One step of the machine changes STATUS by one of the rules that write it. -/
theorem step_statusEffect {s t : State} (h : step s = .next t) (he : nextEvent s ≠ .reset) :
    StatusEffect (nextEvent s) s.p s.ch s.status t.status := by
  simpa using runEvent_statusEffect h he

/-! ### The writers of each bit (R23) -/

namespace StatusEffect

variable {e : Event} {p : Producer} {ch : Chan} {u v : Status}

theorem ready_rises (h : StatusEffect e p ch u v) (h0 : u.ready = false) (h1 : v.ready = true) :
    e = .deliver .syncH ∧ ch.h = true := by
  cases h
  case frameDelivered he hc => exact ⟨he, hc⟩
  all_goals simp_all

theorem ready_falls (h : StatusEffect e p ch u v) (h1 : u.ready = true) (h0 : v.ready = false) :
    e = .host (commandAccess (encode .resume)) := by
  cases h
  case released he _ _ => exact he
  all_goals simp_all

theorem fovf_rises (h : StatusEffect e p ch u v) (h0 : u.fovf = false) (h1 : v.fovf = true) :
    e = .deliver .syncH ∧ ch.h = true ∧ p.hovf = true := by
  cases h
  case frameDelivered he hc => exact ⟨he, hc, h1⟩
  all_goals simp_all

theorem fovf_falls (h : StatusEffect e p ch u v) (h1 : u.fovf = true) (h0 : v.fovf = false) :
    (e = .host (commandAccess (encode .resume)) ∧ u.mbusy = false ∧ u.ready = true) ∨
    (e = .deliver .syncH ∧ ch.h = true ∧ p.hovf = false) := by
  cases h
  case released he hb hr => exact .inl ⟨he, hb, hr⟩
  case frameDelivered he hc => exact .inr ⟨he, hc, h0⟩
  all_goals simp_all

theorem pact_changes (h : StatusEffect e p ch u v) (hne : v.pact ≠ u.pact) : e = .deliver .syncPact := by
  cases h
  case pactDelivered he => exact he
  all_goals simp_all

theorem lostcnt_changes (h : StatusEffect e p ch u v) (hne : v.lostcnt ≠ u.lostcnt) : e = .deliver .syncLost := by
  cases h
  case lostDelivered he => exact he
  all_goals simp_all

theorem frmev_rises (h : StatusEffect e p ch u v) (h0 : u.frmev = false) (h1 : v.frmev = true) :
    e = .deliver .syncH ∧ ch.h = true := by
  cases h
  case frameDelivered he hc => exact ⟨he, hc⟩
  all_goals simp_all

theorem mdone_rises (h : StatusEffect e p ch u v) (h0 : u.mdone = false) (h1 : v.mdone = true) :
    e = .matcher ∧ u.mbusy = true := by
  cases h
  case completed he hb => exact ⟨he, hb⟩
  all_goals simp_all

theorem mbusy_falls (h : StatusEffect e p ch u v) (h1 : u.mbusy = true) (h0 : v.mbusy = false) : e = .matcher := by
  cases h
  case completed he _ => exact he
  all_goals simp_all

theorem mbusy_rises (h : StatusEffect e p ch u v) (h0 : u.mbusy = false) (h1 : v.mbusy = true) :
    ∃ i, (i = .matchDur ∨ i = .decode ∨ i = .matchLit) ∧ e = .host (commandAccess (encode i)) := by
  cases h
  case started i hi he => exact ⟨i, hi, he⟩
  all_goals simp_all

theorem event_falls (h : StatusEffect e p ch u v)
    (hf : (u.frmev = true ∧ v.frmev = false) ∨ (u.mdone = true ∧ v.mdone = false) ∨ (u.err = true ∧ v.err = false)) :
    ∃ a, e = .host a ∧ a.write = true ∧ a.addr = 0x008 := by
  cases h
  case cleared a he hw ha => exact ⟨a, he, hw, ha⟩
  all_goals simp_all

theorem err_rises (h : StatusEffect e p ch u v) (h0 : u.err = false) (h1 : v.err = true) :
    ∃ a, e = .host a ∧ a.write = true := by
  cases h
  case refused a he hw => exact ⟨a, he, hw⟩
  all_goals simp_all

end StatusEffect

/-- Settles O47: each clause is the sole writer of its bit among the rules `step_statusEffect` lists. -/
theorem flagWriters : Obligations.FlagWriters := by
  unfold Obligations.FlagWriters
  intro s t hstep hreset
  have h := step_statusEffect hstep hreset
  exact ⟨h.ready_rises, h.ready_falls, h.fovf_rises, h.fovf_falls, h.pact_changes, h.lostcnt_changes, h.frmev_rises,
    h.mdone_rises, h.mbusy_falls, h.mbusy_rises, h.event_falls, h.err_rises⟩

end Sys2Proof.Proofs
end

section
/-! PROOFS. The obligations of 20_memory.md. -/

namespace Sys2Proof.Proofs
open Sys2Proof.Machine Sys2Proof.Safety

/-! ### The domains meet only in the channels (R70) -/

/-- No write reaches the producer, the sample memory or ch.h. -/
theorem writeEffect_producerDomain {s t : State} (h : WriteEffect s t) :
    t.p = s.p ∧ t.mem = s.mem ∧ t.ch.h = s.ch.h := by
  cases h <;> simp

theorem hostAccess_producerDomain {a : Access} {s t : State} (h : hostAccess a s = .next t) :
    t.p = s.p ∧ t.mem = s.mem ∧ t.ch.h = s.ch.h := by
  rcases hostAccess_cases h with rfl | ⟨-, r, rfl⟩ | ⟨-, hwrite⟩
  · simp
  · simp
  · simpa using writeEffect_producerDomain hwrite

/-- Completion sends on SYNC_H only. -/
@[simp] theorem complete_ch_r (s : State) : (complete s).ch.r = s.ch.r := by
  cases h : s.p.hold
  · simp [complete_free h]
  · simp [complete_held h]

@[simp] theorem frameEnd_ch_r (e : Nat) (s : State) : (frameEnd e s).ch.r = s.ch.r := by
  unfold frameEnd
  split <;> simp

/-- An accepted change sends nothing. -/
@[simp] theorem acceptChange_ch (l : Level) (e : Nat) (s : State) : (acceptChange l e s).ch = s.ch := by
  rcases changeCase_cases l e s with ⟨-, h⟩ | ⟨-, -, -, -, -, h⟩ | ⟨-, -, -, -, h⟩ | ⟨-, h⟩ | ⟨-, h⟩ <;>
    simp [acceptChange, h]

@[simp] theorem levelPart_ch (l : Level) (e : Nat) (s : State) : (levelPart l e s).ch = s.ch := by
  rcases levelPart_cases l e s with ⟨-, h⟩ | ⟨-, -, h⟩ <;> simp [h]

@[simp] theorem ptick_ch_r (l : Level) (s : State) : (ptick l s).ch.r = s.ch.r := by
  cases h : s.p.en
  · simp [ptick_disabled l h]
  · simp [ptick_enabled l h]

/-- Settles O48: a host access by the effects a write can have, a tick by its frame (`ptick_fields`) and `ptick_ch_r`. -/
theorem domainsMeetOnlyInChannels : Obligations.DomainsMeetOnlyInChannels := by
  unfold Obligations.DomainsMeetOnlyInChannels
  refine ⟨fun s t a h => hostAccess_producerDomain h, fun s t m h => ?_⟩
  cases h
  simp

/-! ### The unmapped addresses (R20, R64) -/

/-- The aligned addresses at which no register with one offset lies. -/
theorem singleRegs_find?_eq_none_iff {a : Nat} (h4 : a % 4 = 0) :
    (singleRegs.find? fun r => regOffset r == a) = none ↔ a = 0x03C ∨ a = 0x068 ∨ a = 0x06C ∨ 0x084 ≤ a := by
  by_cases hlow : a < 0x084
  · have below : ∀ k < 33, (singleRegs.find? fun r => regOffset r == 4 * k) = none ↔
        4 * k = 0x03C ∨ 4 * k = 0x068 ∨ 4 * k = 0x06C ∨ 0x084 ≤ 4 * k := by decide
    have ha : 4 * (a / 4) = a := by omega
    simpa only [ha] using below (a / 4) (by omega)
  · have above : ∀ r ∈ singleRegs, regOffset r < 0x084 := by decide
    have hnone : (singleRegs.find? fun r => regOffset r == a) = none := by
      rw [List.find?_eq_none]
      intro r hr
      have := above r hr
      simp
      omega
    simp only [hnone, true_iff]
    omega

/-- R64's list, for a table of at most 16 entries. -/
theorem regAt_eq_none_iff {n a : Nat} (hn : 1 ≤ n ∧ n ≤ 16) (h4 : a % 4 = 0) :
    regAt n a = none ↔
      a = 0x03C ∨ a = 0x068 ∨ a = 0x06C ∨ (0x084 ≤ a ∧ a ≤ 0x0BC) ∨ (0x0C0 + 4 * n ≤ a ∧ a ≤ 0x3FC) ∨ 0x800 ≤ a := by
  unfold regAt
  split
  · simp only [reduceCtorEq, false_iff]
    omega
  · split
    · simp only [reduceCtorEq, false_iff]
      omega
    · rw [singleRegs_find?_eq_none_iff h4]
      omega

theorem hostAccess_unmapped {s : State} {a : Access}
    (h : a.addr.toNat % 4 ≠ 0 ∨ regAt s.par.litMax a.addr.toNat = none) :
    hostAccess a s = .next (raiseBusError s) := by
  unfold hostAccess
  split
  · rfl
  · next h4 => rw [h.resolve_left h4]

/-- A write keeps the response it was answered with (R220). -/
theorem writeEffect_resp {s t : State} (h : WriteEffect s t) : t.resp = s.resp := by
  cases h <;> simp

theorem hostAccess_mapped_err {s t : State} {a : Access} {r : Reg} (h4 : a.addr.toNat % 4 = 0)
    (hr : regAt s.par.litMax a.addr.toNat = some r) (h : hostAccess a s = .next t) : t.resp.err = false := by
  cases hw : a.write
  · have hread : t = answer (readReg r s) s := by simpa [hostAccess, h4, hr, hw, eq_comm] using h
    simp [hread]
  · have hwrite : writeReg r a.wdata (answer 0 s) = .next t := by simpa [hostAccess, h4, hr, hw] using h
    simp [writeEffect_resp (writeReg_effect hwrite)]

/-- Settles O51: the map's gaps are the listed ranges (`regAt_eq_none_iff`), a gap answers BusError, and every other
access answers err = 0. -/
theorem busErrorExactly : Obligations.BusErrorExactly := by
  unfold Obligations.BusErrorExactly
  intro s t a hwf h unmapped
  have hn : 1 ≤ s.par.litMax ∧ s.par.litMax ≤ 16 := by simp_all [Config.wf]
  constructor
  · intro hbad
    have hbus : a.addr.toNat % 4 ≠ 0 ∨ regAt s.par.litMax a.addr.toNat = none := by
      by_cases h4 : a.addr.toNat % 4 = 0
      · exact .inr ((regAt_eq_none_iff hn h4).mpr (hbad.resolve_left (not_not.mpr h4)))
      · exact .inl h4
    cases (hostAccess_unmapped hbus).symm.trans h
    rfl
  · intro h4 hmapped
    obtain ⟨r, hr⟩ := Option.ne_none_iff_exists'.mp (mt (regAt_eq_none_iff hn h4).mp hmapped)
    exact hostAccess_mapped_err h4 hr h

/-! ### Stored words read back masked (R221, R233) -/

/-- A field of `n` bits keeps the low `n` bits of the written word. -/
theorem setWidth_setWidth_eq_and {n : Nat} (hn : n ≤ 32) (w : Word) :
    (w.setWidth n).setWidth 32 = w &&& BitVec.ofNat 32 (2 ^ n - 1) := by
  have hpow : 2 ^ n ≤ 2 ^ 32 := Nat.pow_le_pow_right (by decide) hn
  have hpos : 0 < 2 ^ n := Nat.two_pow_pos n
  refine BitVec.eq_of_toNat_eq ?_
  rw [BitVec.toNat_setWidth, BitVec.toNat_setWidth, BitVec.toNat_and, BitVec.toNat_ofNat,
    Nat.mod_eq_of_lt (by omega : 2 ^ n - 1 < 2 ^ 32), Nat.and_two_pow_sub_one_eq_mod]
  exact Nat.mod_eq_of_lt ((Nat.mod_lt _ hpos).trans_le hpow)

theorem setWidth_ofBool_eq_and (w : Word) : (BitVec.ofBool (w.getLsbD 0)).setWidth 32 = w &&& 0x1 := by
  rw [← BitVec.setWidth_one]
  exact setWidth_setWidth_eq_and (by decide) w

theorem bufmodeCode_bufmodeOf (b : Bool) : bufmodeCode (bufmodeOf b) = BitVec.ofBool b := by
  cases b <;> rfl

theorem irqenWord_irqenOf (w : Word) : irqenWord (irqenOf w) = w &&& 0x70 := by
  refine BitVec.eq_of_getLsbD_eq fun i hi => ?_
  simp only [irqenWord, irqenOf, BitVec.getLsbD_append, BitVec.getLsbD_ofBool, BitVec.getLsbD_and]
  interval_cases i <;> simp

theorem tplFlagsWord_storeMcfg (w : Word) (c : MatcherCfg) : tplFlagsWord (storeMcfg .tplFlags w c) = w &&& 0x3 := by
  refine BitVec.eq_of_getLsbD_eq fun i hi => ?_
  simp only [tplFlagsWord, storeMcfg, BitVec.getLsbD_append, BitVec.getLsbD_ofBool, BitVec.getLsbD_and]
  interval_cases i <;> simp

/-! ### What the two configuration stores do to each field (R228, R229) -/

theorem storePcfg_fields (r : Reg) (w : Word) (c : ProducerCfg) :
    (storePcfg r w c).bufmode = (if r = .cfg then bufmodeOf (w.getLsbD 0) else c.bufmode) ∧
    (storePcfg r w c).noise = (if r = .noise then w.setWidth 16 else c.noise) ∧
    (storePcfg r w c).gap = (if r = .gap then w.setWidth 16 else c.gap) ∧
    (storePcfg r w c).bias = (if r = .bias then w.setWidth 16 else c.bias) := by
  cases r <;> simp [storePcfg]

/-- Every field but the literal table, of which `storeMcfg_lit_getD_same` and its neighbours speak. -/
theorem storeMcfg_fields (r : Reg) (w : Word) (c : MatcherCfg) :
    (storeMcfg r w c).tolpct = (if r = .tolpct then w.setWidth 8 else c.tolpct) ∧
    (storeMcfg r w c).tolabs = (if r = .tolabs then w.setWidth 16 else c.tolabs) ∧
    (storeMcfg r w c).mdObs = (if r = .mdObs then w.setWidth 16 else c.mdObs) ∧
    (storeMcfg r w c).mdExp = (if r = .mdExp then w.setWidth 16 else c.mdExp) ∧
    (storeMcfg r w c).tplId = (if r = .tplId then w.setWidth 8 else c.tplId) ∧
    (storeMcfg r w c).tplRawlen = (if r = .tplRawlen then w.setWidth 8 else c.tplRawlen) ∧
    (storeMcfg r w c).tplHdrmark = (if r = .tplHdrmark then w.setWidth 16 else c.tplHdrmark) ∧
    (storeMcfg r w c).tplHdrspace = (if r = .tplHdrspace then w.setWidth 16 else c.tplHdrspace) ∧
    (storeMcfg r w c).tplMarkone = (if r = .tplMarkone then w.setWidth 16 else c.tplMarkone) ∧
    (storeMcfg r w c).tplMarkzero = (if r = .tplMarkzero then w.setWidth 16 else c.tplMarkzero) ∧
    (storeMcfg r w c).tplSpaceone = (if r = .tplSpaceone then w.setWidth 16 else c.tplSpaceone) ∧
    (storeMcfg r w c).tplSpacezero = (if r = .tplSpacezero then w.setWidth 16 else c.tplSpacezero) ∧
    (storeMcfg r w c).stop = (if r = .tplFlags then w.getLsbD 0 else c.stop) ∧
    (storeMcfg r w c).hdrskip = (if r = .tplFlags then w.getLsbD 1 else c.hdrskip) ∧
    (storeMcfg r w c).litLen = (if r = .litLen then w.setWidth 5 else c.litLen) := by
  cases r <;> simp [storeMcfg]

theorem storeMcfg_lit_length (r : Reg) (w : Word) (c : MatcherCfg) :
    (storeMcfg r w c).lit.length = c.lit.length := by
  cases r <;> simp [storeMcfg]

theorem storeMcfg_lit_getD_same {k : Nat} {c : MatcherCfg} (hk : k < c.lit.length) (w : Word) :
    (storeMcfg (.lit k) w c).lit.getD k 0 = w.setWidth 16 := by
  simp [storeMcfg, hk]

theorem storeMcfg_lit_getD_other {r : Reg} {k : Nat} (h : r ≠ .lit k) (w : Word) (c : MatcherCfg) :
    (storeMcfg r w c).lit.getD k 0 = c.lit.getD k 0 := by
  cases r
  case lit j =>
    have hjk : j ≠ k := by simpa using h
    simp [storeMcfg, hjk]
  all_goals rfl

/-! ### What a read answers after a store -/

theorem readReg_irqen_other {r : Reg} (h : r ≠ .irqen) (e : IrqEn) (s : State) :
    readReg r { s with irqen := e } = readReg r s := by
  cases r
  case irqen => exact absurd rfl h
  all_goals rfl

theorem readReg_ctrl_other {r : Reg} (h : r ≠ .ctrl) (b : Bool) (s : State) :
    readReg r { s with en := b } = readReg r s := by
  cases r
  case ctrl => exact absurd rfl h
  all_goals rfl

theorem readReg_storePcfg_same {r : Reg} (hr : writeRule r = .pcfg) (w : Word) (s : State) :
    readReg r { s with pcfg := storePcfg r w s.pcfg } = w &&& regMask r := by
  cases r <;> simp [writeRule] at hr
  case cfg => exact (congrArg (BitVec.setWidth 32) (bufmodeCode_bufmodeOf _)).trans (setWidth_ofBool_eq_and w)
  all_goals exact setWidth_setWidth_eq_and (by decide : 16 ≤ 32) w

theorem readReg_storePcfg_other {r r' : Reg} (h : r' ≠ r) (w : Word) (s : State) :
    readReg r' { s with pcfg := storePcfg r w s.pcfg } = readReg r' s := by
  cases r'
  case lit k => rfl
  case frame i => rfl
  all_goals simp [readReg, storePcfg_fields, h.symm]

theorem readReg_storeMcfg_same {r : Reg} (hr : writeRule r = .mcfg) (w : Word) {s : State}
    (hlit : ∀ k, r = .lit k → k < s.mcfg.lit.length) :
    readReg r { s with mcfg := storeMcfg r w s.mcfg } = w &&& regMask r := by
  cases r <;> simp [writeRule] at hr
  case tplFlags => exact tplFlagsWord_storeMcfg w s.mcfg
  case lit k =>
    exact (congrArg (BitVec.setWidth 32) (storeMcfg_lit_getD_same (hlit k rfl) w)).trans
      (setWidth_setWidth_eq_and (by decide) w)
  all_goals exact setWidth_setWidth_eq_and (by decide) w

theorem readReg_storeMcfg_other {r r' : Reg} (h : r' ≠ r) (w : Word) (s : State) :
    readReg r' { s with mcfg := storeMcfg r w s.mcfg } = readReg r' s := by
  cases r'
  case lit k => exact congrArg (BitVec.setWidth 32) (storeMcfg_lit_getD_other h.symm w s.mcfg)
  case frame i => rfl
  all_goals simp [readReg, tplFlagsWord, storeMcfg_fields, h.symm]

/-! ### Accepted writes -/

/-- What an accepted write to register `r` leaves: the word masked, err = 0, every other register as it was. -/
def Stored (s : State) (a : Access) (r : Reg) (t : State) : Prop :=
  runEvent (.host a) s = .next t ∧ t.resp = { rdata := 0, err := false } ∧
    readReg r t = a.wdata &&& regMask r ∧ ∀ r' : Reg, r' ≠ r → readReg r' t = readReg r' s

section
variable {s : State} {a : Access} {r : Reg} (hw : a.write = true) (ha : AccessTo s a r)
include hw ha

theorem stored_irqen (hr : writeRule r = .irqen) :
    Stored s a r { answer 0 s with irqen := irqenOf a.wdata } := by
  obtain rfl : r = .irqen := by cases r <;> simp_all [writeRule]
  exact ⟨hostAccess_write ha hw, rfl, irqenWord_irqenOf a.wdata, fun _ h => readReg_irqen_other h _ (answer 0 s)⟩

theorem stored_ctrl (hr : writeRule r = .ctrl) (hopen : a.wdata.getLsbD 0 = s.en ∨ s.en = s.status.pact) :
    Stored s a r { answer 0 s with en := a.wdata.getLsbD 0 } := by
  obtain rfl : r = .ctrl := by cases r <;> simp_all [writeRule]
  have hacc : writeCtrl a.wdata (answer 0 s) = { answer 0 s with en := a.wdata.getLsbD 0 } :=
    if_neg fun h => hopen.elim h.1 h.2
  exact ⟨(hostAccess_write ha hw).trans (congrArg _ hacc), rfl, setWidth_ofBool_eq_and a.wdata,
    fun _ h => readReg_ctrl_other h _ (answer 0 s)⟩

theorem stored_pcfg (hr : writeRule r = .pcfg) (hopen : pcfgOpen s = true) :
    Stored s a r { answer 0 s with pcfg := storePcfg r a.wdata s.pcfg } := by
  have hreg : writeReg r a.wdata (answer 0 s) = .next (writePcfg r a.wdata (answer 0 s)) := by simp [writeReg, hr]
  have hacc : writePcfg r a.wdata (answer 0 s) = { answer 0 s with pcfg := storePcfg r a.wdata s.pcfg } :=
    if_pos hopen
  exact ⟨(hostAccess_write ha hw).trans (hreg.trans (congrArg _ hacc)), rfl,
    readReg_storePcfg_same hr a.wdata (answer 0 s), fun _ h => readReg_storePcfg_other h a.wdata (answer 0 s)⟩

theorem stored_mcfg (hr : writeRule r = .mcfg) (hidle : s.status.mbusy = false)
    (hlen : r = .litLen → a.wdata.toNat % 32 ≤ s.par.litMax) (htable : s.mcfg.lit.length = s.par.litMax) :
    Stored s a r { answer 0 s with mcfg := storeMcfg r a.wdata s.mcfg } := by
  have hreg : writeReg r a.wdata (answer 0 s) = .next (writeMcfg r a.wdata (answer 0 s)) := by simp [writeReg, hr]
  have hrange : ¬ (r = .litLen ∧ s.par.litMax < (a.wdata.setWidth 5 : BitVec 5).toNat) := by simpa using hlen
  have hacc : writeMcfg r a.wdata (answer 0 s) = { answer 0 s with mcfg := storeMcfg r a.wdata s.mcfg } :=
    (if_neg (by simp [hidle])).trans (if_neg hrange)
  have hlit : ∀ k, r = .lit k → k < s.mcfg.lit.length := by
    rintro k rfl
    obtain ⟨-, hexists, -⟩ := ha
    simpa [regExists, htable] using hexists
  exact ⟨(hostAccess_write ha hw).trans (hreg.trans (congrArg _ hacc)), rfl,
    readReg_storeMcfg_same hr a.wdata (s := answer 0 s) hlit,
    fun _ h => readReg_storeMcfg_other h a.wdata (answer 0 s)⟩

end

/-- Settles O53: the tables are the model's own, and each of the four write rules stores (`stored_irqen`, `stored_ctrl`,
`stored_pcfg`, `stored_mcfg`). -/
theorem acceptedWritesReadBack : Obligations.AcceptedWritesReadBack := by
  unfold Obligations.AcceptedWritesReadBack
  refine ⟨by decide, fun k => ⟨rfl, rfl⟩, fun s a r hw ha => ⟨fun hr => ?_, fun hr hopen => ?_,
    fun hr hen hpact hready => ?_, fun hr hidle hlen htable => ?_⟩⟩
  · exact ⟨_, stored_irqen hw ha hr, rfl⟩
  · exact ⟨_, stored_ctrl hw ha hr hopen, rfl⟩
  · exact ⟨_, stored_pcfg hw ha hr (by simp [pcfgOpen, hen, hpact, hready]), rfl⟩
  · exact ⟨_, stored_mcfg hw ha hr hidle hlen htable, rfl, storeMcfg_lit_length r a.wdata s.mcfg⟩

end Sys2Proof.Proofs
end

section
/-! PROOFS. The obligations of 30_encoding.md. -/

namespace Sys2Proof.Proofs
open Sys2Proof.Machine

/-! ### The fields of a command word (R80) as arithmetic on its number -/

theorem rsvOf_toNat (w : Word) : (rsvOf w).toNat = w.toNat / 16 := by
  have hfits : w.toNat / 16 < 2 ^ 28 := by omega
  simpa [rsvOf, Nat.shiftRight_eq_div_pow] using hfits

theorem opcOf_toNat (w : Word) : (opcOf w).toNat = w.toNat % 16 := by
  simp [opcOf]

theorem rsvOf_eq_zero_iff (w : Word) : rsvOf w = 0 ↔ w.toNat / 16 = 0 := by
  rw [← rsvOf_toNat, ← BitVec.toNat_inj]
  rfl

/-! ### The decoder, case by case (R82) -/

theorem decodeWord_of_reservedBits {w : Word} (h : w.toNat / 16 ≠ 0) : decodeWord w = .error .reservedBits :=
  if_pos (mt (rsvOf_eq_zero_iff w).mp h)

theorem decodeWord_encode (i : Instr) : decodeWord (encode i) = .ok i := by
  have hround : Laws.RoundTrip.Statement i := by
    cases i
    case nop => exact Laws.RoundTrip.nop
    case resume => exact Laws.RoundTrip.resume
    case matchDur => exact Laws.RoundTrip.matchDur
    case decode => exact Laws.RoundTrip.decode
    case matchLit => exact Laws.RoundTrip.matchLit
  obtain ⟨-, -, hdecode, -⟩ := hround
  exact hdecode

theorem issueCommand_of_illegal {w : Word} {e : DecodeError} (h : decodeWord w = .error e) (s : State) :
    issueCommand w s = .next (raiseCmdError .badCmd s) := by
  unfold issueCommand
  rw [h]

/-! ### The obligations -/

/-- Settles O1: the round trip of each command (`decodeWord_encode`), and the decoder read backwards
(`encode_eq_of_decodeWord`). -/
theorem decodeInvertsEncode : Obligations.DecodeInvertsEncode := by
  unfold Obligations.DecodeInvertsEncode
  exact ⟨fun i _ => decodeWord_encode i, fun _ _ => encode_eq_of_decodeWord⟩

/-- Settles O2: RSV is the word's number / 16 and OPC its remainder, so the decoder's branches are the statement's. -/
theorem decodeTotalByFields : Obligations.DecodeTotalByFields := by
  unfold Obligations.DecodeTotalByFields
  refine fun w => ⟨decodeWord_of_reservedBits, fun hlegal => ?_, fun s _ h => issueCommand_of_illegal h s⟩
  rw [← opcOf_toNat]
  exact if_neg (not_not.mpr ((rsvOf_eq_zero_iff w).mpr hlegal))

/-- Settles O3: the five words are the commands' encodings; of the near misses, two are reserved opcodes of the table and
two have RSV ≠ 0. -/
theorem commandWordsReadRight : Obligations.CommandWordsReadRight := by
  unfold Obligations.CommandWordsReadRight
  exact ⟨decodeWord_encode .nop, decodeWord_encode .resume, decodeWord_encode .matchDur, decodeWord_encode .decode,
    decodeWord_encode .matchLit, by decide, by decide, decodeWord_of_reservedBits (by decide),
    decodeWord_of_reservedBits (by decide)⟩

end Sys2Proof.Proofs
end

section
/-! PROOFS. The obligations of 40_tolerance.md. -/

namespace Sys2Proof.Proofs
open Sys2Proof.Machine

/-! ### The two tests of R100 -/

theorem pctHolds_iff (p o x : Nat) :
    pctHolds p o x = true ↔
      (x : Int) * (100 - (p : Int)) ≤ 100 * (o : Int) ∧ 100 * (o : Int) ≤ (x : Int) * (100 + (p : Int)) := by
  simp [pctHolds]

theorem absHolds_iff (a o x : Nat) : absHolds a o x = true ↔ x - a ≤ o ∧ o ≤ x + a := by
  simp only [absHolds, decide_eq_true_eq]
  omega

theorem tolMatch_iff (p a o x : Nat) : tolMatch p a o x = true ↔ pctHolds p o x = true ∨ absHolds a o x = true := by
  simp [tolMatch]

/-- The lower bound of PCT is no bound once P is at least 100 (R102 c). -/
theorem pctLower_nonpos {p : Nat} (hp : 100 ≤ p) (x : Nat) : (x : Int) * (100 - (p : Int)) ≤ 0 :=
  mul_nonpos_of_nonneg_of_nonpos (by omega) (by omega)

/-- PCT on natural numbers: truncated subtraction gives the lower bound 0 that R102 (c) derives. -/
theorem pctHolds_iff_nat (p o x : Nat) :
    pctHolds p o x = true ↔ x * (100 - p) ≤ 100 * o ∧ 100 * o ≤ x * (100 + p) := by
  have hupper : 100 * (o : Int) ≤ (x : Int) * (100 + (p : Int)) ↔ 100 * o ≤ x * (100 + p) := by norm_cast
  rw [pctHolds_iff, hupper]
  refine and_congr_left fun _ => ?_
  rcases Nat.le_total 100 p with hp | hp
  · have hlower := pctLower_nonpos hp x
    simp only [Nat.sub_eq_zero_of_le hp]
    omega
  · have hcast : ((100 - p : Nat) : Int) = 100 - (p : Int) := Int.ofNat_sub hp
    rw [← hcast]
    norm_cast

/-! ### The interval of each test, and of M (R102 b) -/

/-- The least duration that passes PCT: ceil(x (100 - P) / 100), and 0 for P at least 100. -/
def pctLeast (p x : Nat) : Nat := if 100 ≤ p then 0 else (x * (100 - p) + 99) / 100

theorem pctLeast_le_iff (p o x : Nat) : pctLeast p x ≤ o ↔ x * (100 - p) ≤ 100 * o := by
  unfold pctLeast
  split
  · next hp => simp [Nat.sub_eq_zero_of_le hp]
  · omega

theorem pctHolds_iff_interval (p o x : Nat) :
    pctHolds p o x = true ↔ pctLeast p x ≤ o ∧ o ≤ x * (100 + p) / 100 := by
  rw [pctHolds_iff_nat, pctLeast_le_iff, Nat.le_div_iff_mul_le (by decide), Nat.mul_comm o]

theorem pctHolds_self (p x : Nat) : pctHolds p x x = true := by
  rw [pctHolds_iff_nat, Nat.mul_comm 100]
  exact ⟨Nat.mul_le_mul_left x (by omega), Nat.mul_le_mul_left x (by omega)⟩

theorem tolMatch_self (p a x : Nat) : tolMatch p a x x = true := (tolMatch_iff p a x x).mpr (.inl (pctHolds_self p x))

/-- Both intervals contain x, so their union is the interval from the lesser lower end to the greater upper end. -/
theorem tolMatch_iff_interval (p a o x : Nat) :
    tolMatch p a o x = true ↔ min (pctLeast p x) (x - a) ≤ o ∧ o ≤ max (x * (100 + p) / 100) (x + a) := by
  obtain ⟨hpctLow, hpctHigh⟩ := (pctHolds_iff_interval p x x).mp (pctHolds_self p x)
  rw [tolMatch_iff, pctHolds_iff_interval, absHolds_iff]
  omega

/-! ### Special expected durations and settings (R102 d, e) -/

theorem pctHolds_expected_zero (p o : Nat) : pctHolds p o 0 = true ↔ o = 0 := by
  simp [pctHolds_iff_nat]

theorem tolMatch_expected_zero (p a o : Nat) : tolMatch p a o 0 = true ↔ o ≤ a := by
  rw [tolMatch_iff, pctHolds_expected_zero, absHolds_iff]
  omega

theorem tolMatch_zero_zero (o x : Nat) : tolMatch 0 0 o x = true ↔ o = x := by
  rw [tolMatch_iff, pctHolds_iff_nat, absHolds_iff]
  omega

/-- Above 563 the 25% window ends at 703, as 100 · 703 ≤ 563 · 125 < 100 · 704 (R103). -/
theorem tolMatch_563_iff {o : Nat} (ho : 563 ≤ o) : tolMatch 25 0 o 563 = true ↔ o ≤ 703 := by
  rw [tolMatch_iff, pctHolds_iff_nat, absHolds_iff]
  omega

/-! ### The width of the products (R102 g) -/

/-- A duration times a factor of at most 355 = 100 + 255 fits 25 bits. -/
theorem dur_mul_lt (x : Dur) {n : Nat} (hn : n ≤ 355) : x.toNat * n < 2 ^ 25 :=
  calc x.toNat * n ≤ 65535 * 355 := Nat.mul_le_mul (Nat.le_of_lt_succ x.isLt) hn
    _ < 2 ^ 25 := by decide

theorem natAbs_pctLower_lt (x : Dur) (p : BitVec 8) : ((x.toNat : Int) * (100 - (p.toNat : Int))).natAbs < 2 ^ 25 := by
  rw [Int.natAbs_mul, Int.natAbs_natCast]
  exact dur_mul_lt x (by omega)

/-! ### MATCH_DUR (R105) -/

theorem execMatchDur_busy {s : State} (hb : s.status.mbusy = true) :
    exec .matchDur s = .next (raiseCmdError .busyCmd s) :=
  if_pos hb

theorem execMatchDur_free {s : State} (hb : s.status.mbusy = false) :
    exec .matchDur s = .next (startMatcher .matchDur s) :=
  if_neg (by simp [hb])

/-- An accepted matcher command and its completion together: the result is written and MDONE set, and MBUSY is back to 0
(R205). -/
theorem runEvent_matcher_startMatcher {s : State} (hb : s.status.mbusy = false) (op : MOp) :
    runEvent .matcher (startMatcher op s) =
      .next
        { s with
          res := matcherResult (startMatcher op s)
          status := { s.status with mdone := true }
          mop := .none } := by
  simp only [runEvent, if_true, matcherStep, startMatcher, ← hb]

/-! ### The obligations -/

/-- Settles O12: the intervals of the two tests, and what follows from them for M. -/
theorem toleranceProperties : Obligations.ToleranceProperties := by
  unfold Obligations.ToleranceProperties
  refine ⟨fun _ x => tolMatch_self _ _ x.toNat, fun p x o => pctHolds_iff_interval p o x,
    fun a x o => absHolds_iff a o x, fun p a x o => tolMatch_iff_interval p a o x,
    fun p x o hp => ⟨pctLower_nonpos hp x, by omega⟩,
    fun p a o => ⟨pctHolds_expected_zero p o, tolMatch_expected_zero p a o⟩, tolMatch_zero_zero,
    ⟨by decide, by decide⟩, fun s o x => ⟨dur_mul_lt x (by omega), ?_, natAbs_pctLower_lt x _⟩,
    ⟨by decide, by decide, fun _ => tolMatch_563_iff⟩⟩
  rw [Nat.mul_comm]
  exact dur_mul_lt o (by decide)

/-- Settles O11: M is one of the two tests, read on integers, for the state's TOLPCT and TOLABS. -/
theorem toleranceExact : Obligations.ToleranceExact := by
  unfold Obligations.ToleranceExact
  refine ⟨fun s o x => ?_, rfl⟩
  rw [tolHolds, tolMatch_iff, pctHolds_iff, absHolds, decide_eq_true_eq, Int.abs_eq_natAbs, Nat.cast_le, tolPct, tolAbs]

/-- Settles O13: the refusal, or the acceptance followed by the MATCHER step from the state it leaves. -/
theorem matchDurResult : Obligations.MatchDurResult := by
  unfold Obligations.MatchDurResult
  exact ⟨fun s hb => execMatchDur_busy hb, fun s hb => ⟨startMatcher .matchDur s, execMatchDur_free hb, rfl,
    runEvent_matcher_startMatcher hb .matchDur⟩⟩

end Sys2Proof.Proofs
end

section
/-! PROOFS. The obligations of 41_capture.md: Record, the accepted change and the tick, one equation per case. -/

namespace Sys2Proof.Proofs
open Sys2Proof.Machine Sys2Proof.Safety

/-! ### Record (R130, R131) -/

theorem adjust_congr {s t : State} (h : t.pcfg = s.pcfg) (d : Nat) (lvl : Level) : adjust t d lvl = adjust s d lvl := by
  cases lvl <;> simp [adjust, biasOf, h]

/-- The recorded slot is the frame's last one, whether there was room or not. -/
theorem record_len (d : Nat) (lvl : Level) {s : State} (hcap : 1 ≤ s.par.cap) (hlen : s.p.len ≤ s.par.cap) :
    (record d lvl s).p.len = recordSlot s + 1 := by
  rcases Nat.lt_or_eq_of_le hlen with hroom | hfull
  · simp [record_room, recordSlot, hroom]
  · simp [record_full _ _ hfull.ge, recordSlot, hfull, Nat.sub_add_cancel hcap]

theorem record_ovf (d : Nat) (lvl : Level) (s : State) :
    (record d lvl s).p.ovf = if s.p.len < s.par.cap then s.p.ovf else true := by
  split
  · next hroom => rw [record_room _ _ hroom]
  · next hfull => rw [record_full _ _ (Nat.le_of_not_lt hfull)]

theorem sample_record_same (d : Nat) (lvl : Level) (s : State) :
    sample (record d lvl s) s.p.bank (recordSlot s) = adjust s d lvl := by
  simp [sample, memRead?_memWrite_same]

theorem sample_record_other (d : Nat) (lvl : Level) {s : State} {b : Bank} {i : Nat}
    (h : slotKey b i ≠ slotKey s.p.bank (recordSlot s)) : sample (record d lvl s) b i = sample s b i := by
  simp [sample, memRead?_memWrite_other _ _ h]

theorem recordSlot_le_len {s : State} (hlen : s.p.len ≤ s.par.cap) : recordSlot s ≤ s.p.len := by
  unfold recordSlot
  split <;> omega

/-- Record keeps the frame's samples below the recorded slot and puts the adjusted one there. -/
theorem captured_record (d : Nat) (lvl : Level) {s : State} (hcap : 1 ≤ s.par.cap) (hmax : s.par.cap ≤ 255)
    (hlen : s.p.len ≤ s.par.cap) :
    captured (record d lvl s) = (captured s).take (recordSlot s) ++ [adjust s d lvl] := by
  have hslot := recordSlot_lt hcap
  have hkept : ∀ i ∈ List.range (recordSlot s), sample (record d lvl s) s.p.bank i = sample s s.p.bank i := by
    intro i hi
    have hi := List.mem_range.mp hi
    refine sample_record_other d lvl fun hkey => ?_
    have := (slotKey_inj (by omega) (by omega) hkey).2
    omega
  simp only [captured, record_len d lvl hcap hlen, record_producer, List.range_succ, List.map_append,
    List.map_congr_left hkept, ← List.map_take, List.take_range, Nat.min_eq_left (recordSlot_le_len hlen),
    List.map_cons, List.map_nil, sample_record_same]

theorem captured_record_room (d : Nat) (lvl : Level) {s : State} (hroom : s.p.len < s.par.cap)
    (hmax : s.par.cap ≤ 255) : captured (record d lvl s) = captured s ++ [adjust s d lvl] := by
  rw [captured_record d lvl (by omega) hmax hroom.le, recordSlot, if_pos hroom,
    List.take_of_length_le (by simp [captured])]

/-! ### An accepted change (R126, R127, R128) -/

theorem acceptChange_idle {l : Level} {e : Nat} {s : State} (hs : s.p.state = .idle)
    (h : ¬ (l = .mark ∧ s.pcfg.gap.toNat ≤ e)) :
    acceptChange l e s = { s with p := { s.p with lev := l, timer := 0 } } := by
  simp [acceptChange, changeCase, hs, h]

theorem acceptChange_blocked {e : Nat} {s : State} (hs : s.p.state = .idle) (hgap : s.pcfg.gap.toNat ≤ e)
    (hblock : s.pcfg.bufmode = .single ∧ s.p.hold = true) :
    acceptChange .mark e s = { s with p := { s.p with lost := s.p.lost + 1, lev := .mark, timer := 0 } } := by
  simp [acceptChange, changeCase, startFrame, loseFrame, hs, hgap, hblock]

/-- The bank a starting frame goes to (R155). -/
def startBank (s : State) : Bank := if s.p.hold = true then otherBank s.p.hbank else s.p.bank

theorem selectBank_eq (s : State) : selectBank s = { s with p := { s.p with bank := startBank s } } := by
  unfold selectBank startBank
  split <;> rfl

/-- The state once a frame has started with the gap `v` as its slot 0. -/
def startedFrame (v : Dur) (s : State) : State :=
  { setSample (startBank s) 0 v s with
    p := { s.p with state := .mark, lev := .mark, timer := 0, len := 1, bank := startBank s } }

theorem acceptChange_start {e : Nat} {s : State} (hs : s.p.state = .idle) (hlen : s.p.len = 0) (hcap : 1 ≤ s.par.cap)
    (hgap : s.pcfg.gap.toNat ≤ e) (hfree : ¬ (s.pcfg.bufmode = .single ∧ s.p.hold = true)) :
    acceptChange .mark e s = startedFrame (adjust s e .space) s := by
  have hroom : (selectBank s).p.len < (selectBank s).par.cap := by simp; omega
  have hadjust : adjust (selectBank s) e .space = adjust s e .space := adjust_congr (by simp) e .space
  have hstart : changeCase .mark e s = setPState .mark (record e .space (selectBank s)) := by
    simp [changeCase, startFrame, hs, hgap, hfree]
  simp only [acceptChange, hstart, record_room _ _ hroom, hadjust, setPState]
  simp [selectBank_eq, setSample, startedFrame, hlen]

theorem captured_startedFrame (v : Dur) (s : State) : captured (startedFrame v s) = [v] := by
  simp [captured, startedFrame, sample, memRead?_memWrite_same]

/-- A frame that starts while another is held leaves the held one's samples. -/
theorem payload_startedFrame (v : Dur) {s : State} (hhold : s.p.hold = true) (hmax : s.p.hlen ≤ 256) :
    payload (startedFrame v s) = payload s := by
  refine List.map_congr_left fun i hi => sample_setSample_other s v fun hkey => ?_
  have hi : i < s.p.hlen := List.mem_range.mp hi
  have hbank := (slotKey_inj (by omega) (by decide) hkey).1
  simp only [startedFrame, startBank, hhold, if_true] at hbank
  exact otherBank_ne _ hbank.symm

/-- What a data slot leaves: the level's duration recorded, the next state `q`, the level taken, the timer restarted. -/
def recordedData (q : PState) (l : Level) (e : Nat) (lvl : Level) (s : State) : State :=
  { record e lvl s with p := { (record e lvl s).p with state := q, lev := l, timer := 0 } }

/-- A data slot's whole state, with room or without. -/
theorem recordedData_eq (q : PState) (l : Level) (e : Nat) (lvl : Level) (s : State) :
    recordedData q l e lvl s =
      { s with
        mem := memWrite s.mem (slotKey s.p.bank (recordSlot s)) (adjust s e lvl)
        p :=
          { s.p with
            state := q, lev := l, timer := 0, len := (record e lvl s).p.len, ovf := (record e lvl s).p.ovf } } := by
  unfold recordedData record
  split <;> rfl

theorem acceptChange_mark {l : Level} {e : Nat} {s : State} (hs : s.p.state = .mark) :
    acceptChange l e s = recordedData .space l e .mark s := by
  simp [acceptChange, changeCase, setPState, hs, recordedData]

theorem acceptChange_space {l : Level} {e : Nat} {s : State} (hs : s.p.state = .space) :
    acceptChange l e s = recordedData .mark l e .space s := by
  simp [acceptChange, changeCase, setPState, hs, recordedData]

theorem recordedData_room (q : PState) (l : Level) (e : Nat) (lvl : Level) {s : State} (h : s.p.len < s.par.cap) :
    recordedData q l e lvl s =
      { s with
        mem := memWrite s.mem (slotKey s.p.bank s.p.len) (adjust s e lvl)
        p := { s.p with state := q, lev := l, timer := 0, len := s.p.len + 1 } } := by
  simp [recordedData, record_room e lvl h, setSample]

theorem recordedData_full (q : PState) (l : Level) (e : Nat) (lvl : Level) {s : State} (h : s.p.len = s.par.cap) :
    recordedData q l e lvl s =
      { s with
        mem := memWrite s.mem (slotKey s.p.bank (s.par.cap - 1)) (adjust s e lvl)
        p := { s.p with state := q, lev := l, timer := 0, ovf := true } } := by
  simp [recordedData, record_full e lvl h.ge, setSample]

/-! ### A tick (R121-R125, R129) -/

theorem levelPart_quiet {l : Level} {e : Nat} {s : State} (h : l = s.p.lev ∨ e < s.pcfg.noise.toNat) :
    levelPart l e s = setTimer e s := by
  rcases levelPart_cases l e s with ⟨-, ht⟩ | ⟨hne, hle, -⟩
  · exact ht
  · exact absurd h (not_or.mpr ⟨hne, Nat.not_lt.mpr hle⟩)

theorem levelPart_change {l : Level} {e : Nat} {s : State} (hl : l ≠ s.p.lev) (he : s.pcfg.noise.toNat ≤ e) :
    levelPart l e s = acceptChange l e s := by
  rcases levelPart_cases l e s with ⟨hq, -⟩ | ⟨-, -, ht⟩
  · exact absurd hq (not_or.mpr ⟨hl, Nat.not_lt.mpr he⟩)
  · exact ht

/-- A tick answers what `PTICK` leaves (R121). -/
theorem runEvent_tick {m : Bool} {s t : State} (h : ptick (levelOf m) s = t) : runEvent (.tick m) s = .next t :=
  congrArg Host.Outcome.next h

section
variable {l : Level} {s : State} (hen : s.p.en = true)
include hen

/-- No frame ends, and no change or an early one: the timer runs on. -/
theorem ptick_quiet (hend : ¬ (s.p.state = .space ∧ s.pcfg.gap.toNat ≤ elapsed s))
    (h : l = s.p.lev ∨ elapsed s < s.pcfg.noise.toNat) : ptick l s = setTimer (elapsed s) s := by
  rw [ptick_enabled l hen, frameEnd_of_not hend, levelPart_quiet h]

/-- No frame ends, and a change is accepted. -/
theorem ptick_change (hend : ¬ (s.p.state = .space ∧ s.pcfg.gap.toNat ≤ elapsed s)) (hl : l ≠ s.p.lev)
    (he : s.pcfg.noise.toNat ≤ elapsed s) : ptick l s = acceptChange l (elapsed s) s := by
  rw [ptick_enabled l hen, frameEnd_of_not hend, levelPart_change hl he]

/-- A frame ends, and no change or an early one: the timer runs on. -/
theorem ptick_end_quiet (hs : s.p.state = .space) (hgap : s.pcfg.gap.toNat ≤ elapsed s)
    (h : l = s.p.lev ∨ elapsed s < s.pcfg.noise.toNat) : ptick l s = setTimer (elapsed s) (complete s) := by
  rw [ptick_enabled l hen, frameEnd_of hs hgap, levelPart_quiet (by simpa using h)]

/-- A frame ends, and a change is accepted in the state the completion leaves. -/
theorem ptick_end_change (hs : s.p.state = .space) (hgap : s.pcfg.gap.toNat ≤ elapsed s) (hl : l ≠ s.p.lev)
    (he : s.pcfg.noise.toNat ≤ elapsed s) : ptick l s = acceptChange l (elapsed s) (complete s) := by
  rw [ptick_enabled l hen, frameEnd_of hs hgap, levelPart_change (by simpa using hl) (by simpa using he)]

end

theorem adjust_complete (s : State) (d : Nat) (lvl : Level) : adjust (complete s) d lvl = adjust s d lvl :=
  adjust_congr (by simp) d lvl

section
variable {s : State} (hen : s.p.en = true) (hs : s.p.state = .space) (hl : s.p.lev = .space)
  (hgap : s.pcfg.gap.toNat ≤ elapsed s) (hnoise : s.pcfg.noise.toNat ≤ elapsed s)
include hen hs hl hgap hnoise

/-- A frame ends in DOUBLE mode and the next one starts in the same tick (R129, R126). -/
theorem ptick_end_start (hdouble : s.pcfg.bufmode = .double) (hcap : 1 ≤ s.par.cap) :
    ptick .mark s = startedFrame (adjust s (elapsed s) .space) (complete s) := by
  rw [ptick_end_change hen hs hgap (by simp [hl]) hnoise,
    acceptChange_start (by simp) (by simp) (by simpa) (by simpa) (by simp [hdouble]), adjust_complete]

/-- A frame ends in SINGLE mode, and the start in the same tick is blocked (R129, R136). -/
theorem ptick_end_blocked (hsingle : s.pcfg.bufmode = .single) :
    ptick .mark s =
      { complete s with p := { (complete s).p with lost := (complete s).p.lost + 1, lev := .mark, timer := 0 } } := by
  rw [ptick_end_change hen hs hgap (by simp [hl]) hnoise,
    acceptChange_blocked (by simp) (by simpa) (by simp [hsingle])]

end

theorem payload_complete {s : State} (h : s.p.hold = false) : payload (complete s) = captured s := by
  simp [payload, captured, complete_free h, sample]

/-! ### The memory in a tick (R61, R130) -/

/-- An accepted change stores nothing, or one entry: at Record's slot of the current bank, or of the selected bank when
a frame starts. -/
theorem acceptChange_mem (l : Level) (e : Nat) (s : State) :
    (acceptChange l e s).mem = s.mem ∨
    (s.p.state ≠ .idle ∧ ∃ v, (acceptChange l e s).mem = memWrite s.mem (slotKey s.p.bank (recordSlot s)) v) ∨
    (s.p.state = .idle ∧
      ∃ v, (acceptChange l e s).mem =
        memWrite s.mem (slotKey (selectBank s).p.bank (recordSlot (selectBank s))) v) := by
  rcases changeCase_cases l e s with ⟨-, h⟩ | ⟨-, -, -, -, -, h⟩ | ⟨hs, -, -, -, h⟩ | ⟨hs, h⟩ | ⟨hs, h⟩
  · exact .inl (by simp [acceptChange, h])
  · exact .inl (by simp [acceptChange, h])
  · exact .inr (.inr ⟨hs, adjust (selectBank s) e .space, by simp [acceptChange, h]⟩)
  · exact .inr (.inl ⟨by simp [hs], adjust s e .mark, by simp [acceptChange, h]⟩)
  · exact .inr (.inl ⟨by simp [hs], adjust s e .space, by simp [acceptChange, h]⟩)

@[simp] theorem frameEnd_mem (e : Nat) (s : State) : (frameEnd e s).mem = s.mem := by
  unfold frameEnd
  split <;> simp

@[simp] theorem frameEnd_producer (e : Nat) (s : State) :
    (frameEnd e s).p.en = s.p.en ∧ (frameEnd e s).p.lev = s.p.lev := by
  unfold frameEnd
  split <;> simp

@[simp] theorem acceptChange_en (l : Level) (e : Nat) (s : State) : (acceptChange l e s).p.en = s.p.en := by
  rcases changeCase_cases l e s with ⟨-, h⟩ | ⟨-, -, -, -, -, h⟩ | ⟨-, -, -, -, h⟩ | ⟨-, h⟩ | ⟨-, h⟩ <;>
    simp [acceptChange, h]

/-- A tick without an accepted change stores nothing. -/
theorem ptick_mem_of_quiet {l : Level} {s : State}
    (h : l = s.p.lev ∨ elapsed s < s.pcfg.noise.toNat ∨ s.p.en = false) : (ptick l s).mem = s.mem := by
  cases hen : s.p.en
  · simp [ptick_disabled l hen]
  · have hquiet : l = (frameEnd (elapsed s) s).p.lev ∨ elapsed s < (frameEnd (elapsed s) s).pcfg.noise.toNat := by
      simpa [hen] using h
    simp [ptick_enabled l hen, levelPart_quiet hquiet]

/-- A tick stores nothing, or what an accepted change after the frame-end check stores. -/
theorem ptick_mem (l : Level) (s : State) :
    (ptick l s).mem = s.mem ∨ (ptick l s).mem = (acceptChange l (elapsed s) (frameEnd (elapsed s) s)).mem := by
  cases hen : s.p.en
  · exact .inl (by simp [ptick_disabled l hen])
  · rw [ptick_enabled l hen]
    rcases levelPart_cases l (elapsed s) (frameEnd (elapsed s) s) with ⟨-, h⟩ | ⟨-, -, h⟩
    · exact .inl (by simp [h])
    · exact .inr (by rw [h])

theorem ptick_en (l : Level) (s : State) : (ptick l s).p.en = s.p.en := by
  cases hen : s.p.en
  · simp [ptick_disabled l hen, hen]
  · rcases levelPart_cases l (elapsed s) (frameEnd (elapsed s) s) with ⟨-, h⟩ | ⟨-, -, h⟩ <;>
      simp [ptick_enabled l hen, h, hen]

/-- Entries away from Record's slot stay, whichever slot that is. -/
theorem ptick_memRead?_of_ne {l : Level} {s : State} {k : Nat}
    (hdata : (frameEnd (elapsed s) s).p.state ≠ .idle →
      k ≠ slotKey (frameEnd (elapsed s) s).p.bank (recordSlot (frameEnd (elapsed s) s)))
    (hstart : (frameEnd (elapsed s) s).p.state = .idle →
      k ≠ slotKey (selectBank (frameEnd (elapsed s) s)).p.bank (recordSlot (selectBank (frameEnd (elapsed s) s)))) :
    memRead? (ptick l s).mem k = memRead? s.mem k := by
  rcases ptick_mem l s with h | h
  · rw [h]
  · rw [h]
    rcases acceptChange_mem l (elapsed s) (frameEnd (elapsed s) s) with hm | ⟨hs, v, hm⟩ | ⟨hs, v, hm⟩
    · rw [hm, frameEnd_mem]
    · rw [hm, memRead?_memWrite_other _ _ (hdata hs), frameEnd_mem]
    · rw [hm, memRead?_memWrite_other _ _ (hstart hs), frameEnd_mem]

/-- A tick leaves every field outside the producer, ch.h and the memory. -/
theorem ptick_frame (l : Level) (s : State) :
    ptick l s = { s with p := (ptick l s).p, ch := { s.ch with h := (ptick l s).ch.h }, mem := (ptick l s).mem } := by
  have hfields := ptick_fields l s
  have hr := ptick_ch_r l s
  generalize ptick l s = t at hfields hr ⊢
  obtain ⟨_, _, _, _, _, _, _, _, _, _, _, _, ⟨_, _⟩, _, _, _, _⟩ := t
  simp_all

/-! ### Ticks in a mark (R123, R133) -/

theorem elapsed_setTimer (d : Nat) (s : State) (hd : d ≤ 65535) :
    elapsed (setTimer d s) = min (d + s.par.tickUs) 65535 := by
  rw [elapsed, setTimer_timer_toNat d s hd, (setTimer_fields d s).1]

/-- Mark ticks in a mark only move the timer, which stops at 65535. -/
theorem ticks_mark {s : State} (n : Nat) (hen : s.p.en = true) (hs : s.p.state = .mark) (hl : s.p.lev = .mark) :
    ticks .mark n s = setTimer (min (s.p.timer.toNat + n * s.par.tickUs) 65535) s := by
  induction n generalizing s with
  | zero =>
    have hle : s.p.timer.toNat ≤ 65535 := by have := s.p.timer.isLt; omega
    simp [ticks, setTimer, Nat.min_eq_left hle]
  | succ n ih =>
    have htick : ptick .mark s = setTimer (elapsed s) s := ptick_quiet hen (by simp [hs]) (.inl hl.symm)
    have hsum : min (elapsed s + n * s.par.tickUs) 65535 = min (s.p.timer.toNat + (n + 1) * s.par.tickUs) 65535 := by
      rw [elapsed, Nat.add_mul]
      omega
    rw [ticks, htick, ih (by simpa) (by simpa) (by simpa), setTimer_timer_toNat _ _ (elapsed_le s),
      (setTimer_fields _ s).1, hsum]
    rfl

/-! ### The obligations -/

/-- Settles O24: the disabled tick of R122. -/
theorem disabledTickTracksLevel : Obligations.DisabledTickTracksLevel := by
  unfold Obligations.DisabledTickTracksLevel
  exact fun s m hen => runEvent_tick (ptick_disabled (levelOf m) hen)

/-- Settles O25: `sat16` is the clamp (`sat16_toNat`). -/
theorem adjustClampsBias : Obligations.AdjustClampsBias := by
  unfold Obligations.AdjustClampsBias
  exact fun s d => ⟨sat16_toNat _, sat16_toNat _⟩

/-- Settles O26: the recorded slot is p.len with room and CAP - 1 without (`captured_record`). -/
theorem recordAppendsOrFreezes : Obligations.RecordAppendsOrFreezes := by
  unfold Obligations.RecordAppendsOrFreezes
  intro s d lvl hmin hmax hlen
  refine ⟨fun hroom => ⟨captured_record_room d lvl hroom hmax, ?_⟩, fun hfull => ⟨?_, ?_⟩, fun k hk => ?_⟩
  · rw [record_room d lvl hroom]
  · rw [captured_record d lvl (by omega) hmax hlen, recordSlot, if_neg (by omega)]
  · rw [record_full d lvl hfull.ge]
  · rw [record_mem, memRead?_memWrite_other _ _ hk]

/-- Settles O27: the tick is an accepted change that starts a frame. -/
theorem frameStartsAfterGap : Obligations.FrameStartsAfterGap := by
  unfold Obligations.FrameStartsAfterGap
  intro s hen hs hl hlen hcap hnoise hgap hfree
  have htick : ptick .mark s = startedFrame (adjust s (elapsed s) .space) s := by
    rw [ptick_change hen (by simp [hs]) (by simp [hl]) hnoise, acceptChange_start hs hlen hcap hgap hfree]
  exact ⟨_, runEvent_tick htick, rfl, captured_startedFrame _ s, rfl⟩

/-- Settles O28: the tick is an accepted change whose start is blocked. -/
theorem blockedStartCountsLost : Obligations.BlockedStartCountsLost := by
  unfold Obligations.BlockedStartCountsLost
  intro s hen hs hl hnoise hgap hsingle hhold
  exact runEvent_tick ((ptick_change hen (by simp [hs]) (by simp [levelOf, hl]) hnoise).trans
    (acceptChange_blocked hs hgap ⟨hsingle, hhold⟩))

/-- Settles O29: the tick is an accepted change in IDLE that meets no frame start. -/
theorem idleChangeRetimes : Obligations.IdleChangeRetimes := by
  unfold Obligations.IdleChangeRetimes
  intro s m hen hs hl hnoise hother
  have hnostart : ¬ (levelOf m = .mark ∧ s.pcfg.gap.toNat ≤ elapsed s) := by
    rintro ⟨hm, hgap⟩
    rcases hother with rfl | hlt
    · cases hm
    · omega
  exact runEvent_tick ((ptick_change hen (by simp [hs]) hl hnoise).trans (acceptChange_idle hs hnostart))

/-- Settles O30: the tick is an accepted change that records a data slot, with room or without. -/
theorem marksAndSpacesRecorded : Obligations.MarksAndSpacesRecorded := by
  unfold Obligations.MarksAndSpacesRecorded
  intro s hen hnoise
  refine ⟨fun hs hl => ?_, fun hs hl hgap => ?_⟩
  · have htick : ptick .space s = recordedData .space .space (elapsed s) .mark s :=
      (ptick_change hen (by simp [hs]) (by simp [hl]) hnoise).trans (acceptChange_mark hs)
    exact ⟨fun h => runEvent_tick (htick.trans (recordedData_room _ _ _ _ h)),
      fun h => runEvent_tick (htick.trans (recordedData_full _ _ _ _ h))⟩
  · have htick : ptick .mark s = recordedData .mark .mark (elapsed s) .space s :=
      (ptick_change hen (fun hend => absurd hend.2 (Nat.not_le.mpr hgap)) (by simp [hl]) hnoise).trans
        (acceptChange_space hs)
    exact ⟨fun h => runEvent_tick (htick.trans (recordedData_room _ _ _ _ h)),
      fun h => runEvent_tick (htick.trans (recordedData_full _ _ _ _ h))⟩

/-- Settles O31: the quiet tick, of any p.state (`ptick_quiet`). -/
theorem earlyChangeDiscarded : Obligations.EarlyChangeDiscarded := by
  unfold Obligations.EarlyChangeDiscarded
  exact fun s m hen hend hquiet => ⟨rfl, runEvent_tick (ptick_quiet hen hend hquiet)⟩

/-- Settles O32: the tick is the hand-off, and then what a quiet tick, a frame start or a blocked start does. -/
theorem frameEndHandsOff : Obligations.FrameEndHandsOff := by
  unfold Obligations.FrameEndHandsOff
  intro s hen hs hl hgap hhold handed
  have hpay := payload_complete hhold
  refine ⟨fun m hm => ?_, fun hnoise hdouble hcap hmax hlen => ?_, fun hnoise hsingle => ?_⟩
  · have hquiet : levelOf m = s.p.lev ∨ elapsed s < s.pcfg.noise.toNat := hm.imp_left (by rintro rfl; exact hl.symm)
    refine ⟨_, runEvent_tick (ptick_end_quiet hen hs hgap hquiet), ?_, hpay⟩
    simp [complete_free hhold, handOff, sendH, clearCapture, setTimer, handed]
  · refine ⟨_, runEvent_tick (ptick_end_start hen hs hl hgap hnoise hdouble hcap), ?_, ?_, ?_,
      captured_startedFrame _ _⟩
    · simp [startedFrame, startBank, complete_free hhold, handed]
    · simp [startedFrame, complete_free hhold]
    · rw [payload_startedFrame _ (by simp) (by simp [complete_free hhold]; omega), hpay]
  · refine ⟨_, runEvent_tick (ptick_end_blocked hen hs hl hgap hnoise hsingle), ?_, hpay⟩
    simp [complete_free hhold, handOff, sendH, clearCapture, hsingle, handed]

/-- Settles O33: the tick counts and drops the frame, and then does what a quiet tick, a frame start or a blocked start
does. -/
theorem frameEndWhileHeldDrops : Obligations.FrameEndWhileHeldDrops := by
  unfold Obligations.FrameEndWhileHeldDrops
  intro s hen hs hl hgap hhold
  have hdrop : complete s =
      { s with p := { s.p with len := 0, ovf := false, state := .idle, lost := s.p.lost + 1 } } := complete_held hhold
  refine ⟨fun m hm => ?_, fun hnoise hdouble hcap => ?_, fun hnoise hsingle => ?_⟩
  · have hquiet : levelOf m = s.p.lev ∨ elapsed s < s.pcfg.noise.toNat := hm.imp_left (by rintro rfl; exact hl.symm)
    exact runEvent_tick ((ptick_end_quiet hen hs hgap hquiet).trans (by rw [hdrop]; rfl))
  · refine ⟨_, runEvent_tick (ptick_end_start hen hs hl hgap hnoise hdouble hcap), ?_, ?_, captured_startedFrame _ _,
      fun hhlen hmax => ?_⟩
    · simp [startedFrame, startBank, hdrop, hhold]
    · simp [startedFrame, hdrop]
    · rw [payload_startedFrame _ (by simp) (by simp [hdrop]; omega), hdrop]
      rfl
  · exact runEvent_tick ((ptick_end_blocked hen hs hl hgap hnoise hsingle).trans (by rw [hdrop]))

/-- Settles O34: by induction on the number of ticks (`ticks_mark`). -/
theorem markNeverTimesOut : Obligations.MarkNeverTimesOut := by
  unfold Obligations.MarkNeverTimesOut
  exact fun s n hen hs hl => ticks_mark n hen hs hl

/-- Settles O35: the mark ticks have run the timer to n TICK_US, and the space tick records the elapsed time. -/
theorem markDurationMeasured : Obligations.MarkDurationMeasured := by
  unfold Obligations.MarkDurationMeasured
  intro s n hen hs hl ht hnoise hroom hmax
  have hrun : ticks .mark n s = setTimer (min (n * s.par.tickUs) 65535) s := by
    simpa [ht] using ticks_mark n hen hs hl
  have helapsed : elapsed (ticks .mark n s) = min ((n + 1) * s.par.tickUs) 65535 := by
    rw [hrun, elapsed_setTimer _ _ (Nat.min_le_right _ _), Nat.add_mul]
    omega
  have hrec : ticks .space 1 (ticks .mark n s) =
      recordedData .space .space (elapsed (ticks .mark n s)) .mark (ticks .mark n s) :=
    (ptick_change (by simpa [hrun]) (by simp [hrun, hs]) (by simp [hrun, hl])
      (by rw [helapsed, hrun]; exact hnoise)).trans (acceptChange_mark (by simp [hrun, hs]))
  rw [hrec, helapsed, hrun]
  exact captured_record_room _ .mark (s := setTimer _ s) hroom hmax

/-- Settles O36: the frame of a tick, and the one entry an accepted change stores to. -/
theorem tickFrame : Obligations.TickFrame := by
  unfold Obligations.TickFrame
  intro s t m h
  cases h
  exact ⟨ptick_frame _ s, ptick_en _ s, ptick_mem_of_quiet,
    fun k hs hk => ptick_memRead?_of_ne (fun _ => hk) fun h => absurd h hs,
    fun k hs hk => ptick_memRead?_of_ne (fun h => absurd hs h) fun _ => hk⟩

end Sys2Proof.Proofs
end

section
/-! PROOFS. The obligations of 41_capture.md: every step keeps the invariant (R53-R57, R137, R171), and what that says
of the held bank. -/

namespace Sys2Proof.Proofs
open Sys2Proof.Machine Sys2Proof.Safety

/-! ### The result registers (R88, R200, R204) -/

/-- What a result record may hold: at most 127 bits, and never the reserved reason. -/
def VerdictOk : Verdict → Prop
  | .matched _ b => b ≤ 127
  | .repeated => True
  | .noMatch why _ _ _ => why ≠ .trailerBit

theorem verdictOk_rawCount (s : State) (i x : Nat) : VerdictOk (rawCount s i x) := by
  simp [rawCount, VerdictOk]

theorem slotReason_ne_trailerBit (i : Nat) : slotReason i ≠ .trailerBit := by
  unfold slotReason
  split <;> simp

theorem verdictOk_litMatch (s : State) : VerdictOk (litMatch s) := by
  unfold litMatch
  split
  · exact verdictOk_rawCount _ _ _
  · rcases litScan_cases s (litCount s) 0 with ⟨-, h⟩ | ⟨m, -, -, -, -, h⟩
    · rw [h]
      trivial
    · rw [h]
      exact slotReason_ne_trailerBit _

/-- A header slot passes without going back, or reports a failure that may be reported. -/
theorem headerSlot_ok_or_error (s : State) (x : Dur) {why : Reason} (hwhy : why ≠ .trailerBit) (c : Nat) :
    (∃ c', c ≤ c' ∧ headerSlot s x why c = .ok c') ∨ ∃ r, headerSlot s x why c = .error r ∧ VerdictOk r := by
  rcases headerSlot_cases s x why c with ⟨-, h⟩ | ⟨-, -, h⟩ | ⟨-, -, -, -, h⟩
  · exact .inl ⟨_, by split <;> omega, h⟩
  · exact .inr ⟨_, h, verdictOk_rawCount _ _ _⟩
  · exact .inr ⟨_, h, hwhy⟩

/-- From slot 1 on, at most 254 slots are left, and every second one carries a bit. -/
theorem bitsFrom_region_length_le (s : State) {c : Nat} (hc : 1 ≤ c) :
    (bitsFrom s c (regionEnd s - c)).length ≤ 127 := by
  have hlen := (bitsFrom_length_le s c (regionEnd s - c)).1
  have hflen : frameLen s < 256 := s.flen.isLt
  have hend : regionEnd s ≤ frameLen s := by
    unfold regionEnd
    split <;> omega
  omega

theorem verdictOk_genericBody (s : State) {c : Nat} (hc : 1 ≤ c) : VerdictOk (genericBody s c) := by
  rcases genericBody_cases s c with ⟨-, -, -, h⟩ | ⟨-, -, h⟩ | ⟨j, x, -, -, -, -, -, -, -, h⟩ | ⟨-, -, -, -, h⟩
  · rw [h]
    exact bitsFrom_region_length_le s hc
  · rw [h]
    exact verdictOk_rawCount _ _ _
  · rw [h]
    exact slotReason_ne_trailerBit j
  · rw [h]
    exact Reason.noConfusion

theorem verdictOk_generic (s : State) : VerdictOk (generic s) := by
  unfold generic
  split
  · exact verdictOk_rawCount _ _ _
  · rcases headerSlot_ok_or_error s s.mcfg.tplHdrmark (why := .headerMark) (by simp) 1 with ⟨c, hc, h⟩ | ⟨r, h, hr⟩
    · simp only [h]
      rcases headerSlot_ok_or_error s s.mcfg.tplHdrspace (why := .headerSpace) (by simp) c with
        ⟨c', hc', h⟩ | ⟨r, h, hr⟩
      · simp only [h]
        exact verdictOk_genericBody s (hc.trans hc')
      · simpa only [h] using hr
    · simpa only [h] using hr

theorem verdictOk_decodeVerdict (s : State) : VerdictOk (decodeVerdict s) := by
  unfold decodeVerdict
  split
  · trivial
  · exact verdictOk_generic s

theorem resultOk_resultOf {r : Verdict} (h : VerdictOk r) (id : BitVec 8) : ResultOk (resultOf r id) := by
  cases r with
  | matched v b =>
    have hb : b % 256 ≤ 127 := (Nat.mod_le _ _).trans h
    simpa [ResultOk, resultOf] using hb
  | repeated => simp [ResultOk, resultOf]
  | noMatch why i x o =>
    have hwhy : why ≠ .trailerBit := h
    simpa [ResultOk, resultOf] using hwhy

theorem resultOk_matcherResult {s : State} (h : ResultOk s.res) : ResultOk (matcherResult s) := by
  unfold matcherResult
  split
  · exact h
  · cases hm : tolHolds s s.mcfg.mdObs s.mcfg.mdExp <;> simp [ResultOk, Machine.matchDurResult, hm]
  · exact resultOk_resultOf (verdictOk_decodeVerdict s) _
  · exact resultOk_resultOf (verdictOk_litMatch s) _

/-- An idle producer with an empty frame is in order (R54). -/
theorem producerOk_of_empty {s : State} (hs : s.p.state = .idle) (hlen : s.p.len = 0) (hovf : s.p.ovf = false) :
    ProducerOk s :=
  ⟨by simp [hs], by simp [hs], fun _ => ⟨hlen, hovf⟩, fun hne => absurd hs hne, fun _ => hs⟩

/-! ### Which of the four handshake states holds (R53) -/

section
variable {s : State} (h : Inv s)
include h

theorem hsFree_of_hold (hhold : s.p.hold = false) : HsFree s := by
  rcases h.handshake with hs | ⟨hne, -⟩ | ⟨hne, -⟩ | ⟨hne, -⟩
  · exact hs
  all_goals exact absurd hhold (by simp [hne])

theorem hsFlight_of_h (hh : s.ch.h = true) : HsFlight s := by
  rcases h.handshake with ⟨-, hne, -⟩ | hs | ⟨-, hne, -⟩ | ⟨-, hne, -⟩
  case inr.inl => exact hs
  all_goals exact absurd hh (by simp [hne])

theorem hsPending_of_ready (hready : s.status.ready = true) : HsPending s := by
  rcases h.handshake with ⟨-, -, hne, -⟩ | ⟨-, -, hne, -⟩ | hs | ⟨-, -, hne, -⟩
  case inr.inr.inl => exact hs
  all_goals exact absurd hready (by simp [hne])

theorem hsRelease_of_r (hr : s.ch.r = true) : HsRelease s := by
  rcases h.handshake with ⟨-, -, -, hne⟩ | ⟨-, -, -, hne⟩ | ⟨-, -, -, hne⟩ | hs
  case inr.inr.inr => exact hs
  all_goals exact absurd hr (by simp [hne])

/-! ### The producer and its frame, read off the invariant (R54, R137) -/

theorem idle_of_disabled (hen : s.p.en = false) : s.p.state = .idle := h.producer.2.2.2.2 hen

theorem empty_of_idle (hs : s.p.state = .idle) : s.p.len = 0 ∧ s.p.ovf = false := h.producer.2.2.1 hs

theorem lev_of_mark (hs : s.p.state = .mark) : s.p.lev = .mark := h.producer.1 hs

theorem lev_of_space (hs : s.p.state = .space) : s.p.lev = .space := (h.producer.2.1 hs).1

theorem two_le_len_of_space (hs : s.p.state = .space) : 2 ≤ s.p.len := (h.producer.2.1 hs).2

theorem len_bounds (hs : s.p.state ≠ .idle) : 1 ≤ s.p.len ∧ s.p.len ≤ s.par.cap := h.producer.2.2.2.1 hs

theorem cap_bounds : 2 ≤ s.par.cap ∧ s.par.cap ≤ 255 := by
  have hwf := h.par
  simp only [Config.wf, Bool.and_eq_true, decide_eq_true_eq] at hwf
  exact hwf.1.1

/-! ### The consumer's steps -/

theorem inv_setEn {b : Bool} (hb : ¬ (b ≠ s.en ∧ s.en ≠ s.status.pact)) : Inv { s with en := b } :=
  { h with
    enable := by
      intro (hpact : b = s.status.pact)
      have hsame : b = s.en := by
        by_contra hne
        exact hb ⟨hne, fun heq => hne (hpact.trans heq.symm)⟩
      rw [hsame]
      exact h.enable (hsame ▸ hpact) }

/-- The producer configuration is written only while the producer is off, so there is no frame under capture. -/
theorem inv_storePcfg {c : ProducerCfg} (hopen : pcfgOpen s = true) : Inv { s with pcfg := c } := by
  simp only [pcfgOpen, Bool.and_eq_true, Bool.not_eq_true'] at hopen
  obtain ⟨⟨hen, hpact⟩, -⟩ := hopen
  have hidle := idle_of_disabled h ((h.enable (hen.trans hpact.symm)).trans hen)
  exact { h with banks := fun _ hne => absurd hidle hne }

theorem inv_storeMcfg {r : Reg} {w : Word}
    (hlen : ¬ (r = .litLen ∧ s.par.litMax < (w.setWidth 5 : BitVec 5).toNat)) :
    Inv { s with mcfg := storeMcfg r w s.mcfg } :=
  { h with
    literal := by
      refine ⟨(storeMcfg_lit_length r w s.mcfg).trans h.literal.1, ?_⟩
      have hstored : (storeMcfg r w s.mcfg).litLen = if r = .litLen then w.setWidth 5 else s.mcfg.litLen := by
        simp [storeMcfg_fields]
      rw [hstored]
      split
      · next hr => exact Nat.le_of_not_lt fun hlt => hlen ⟨hr, hlt⟩
      · exact h.literal.2 }

theorem inv_releaseFrame (hb : s.status.mbusy = false) (hready : s.status.ready = true) : Inv (releaseFrame s) := by
  obtain ⟨hhold, hh, -, -⟩ := hsPending_of_ready h hready
  have hmop : s.mop = .none := h.matcher.1.mpr hb
  exact
    { h with
      handshake := .inr (.inr (.inr ⟨hhold, hh, rfl, rfl⟩))
      pending := ⟨nofun, fun _ => ⟨rfl, rfl⟩⟩
      matcher := ⟨h.matcher.1, by simp [hmop], by simp [hmop]⟩
      written := ⟨h.written.1, by simp [hh]⟩ }

theorem inv_startMatcher {op : MOp} (ho : op ≠ .none) (hr : op ≠ .matchDur → s.status.ready = true) :
    Inv (startMatcher op s) :=
  { h with
    matcher := ⟨by simp [ho], fun hop => hr (by simp_all), fun hop => hr (by simp_all)⟩ }

theorem inv_of_writeEffect {t : State} (ht : WriteEffect s t) : Inv t := by
  cases ht with
  | ignored => exact h
  | refused c => exact { h with }
  | ctrl b hb => exact inv_setEn h hb
  | status w => exact { h with }
  | irqen w => exact { h with }
  | pcfg r w hopen => exact inv_storePcfg h hopen
  | mcfg r w _ hlen => exact inv_storeMcfg h hlen
  | release hb hr => exact inv_releaseFrame h hb hr
  | start op _ ho hr => exact inv_startMatcher h ho hr

theorem inv_hostAccess {a : Access} {t : State} (ht : hostAccess a s = .next t) : Inv t := by
  rcases hostAccess_cases ht with rfl | ⟨-, r, rfl⟩ | ⟨-, hwrite⟩
  · exact { h with }
  · exact { h with }
  · exact inv_of_writeEffect (s := answer 0 s) { h with } hwrite

theorem inv_matcherStep : Inv (matcherStep s) :=
  { h with
    matcher := ⟨by simp, by simp, by simp⟩
    result := resultOk_matcherResult h.result }

/-! ### The deliveries and RESET -/

theorem inv_deliverH (hh : s.ch.h = true) : Inv (deliverH s) := by
  obtain ⟨hhold, -, -, hr⟩ := hsFlight_of_h h hh
  exact
    { h with
      handshake := .inr (.inr (.inl ⟨hhold, rfl, rfl, hr⟩))
      pending := ⟨fun _ => ⟨rfl, rfl, rfl⟩, nofun⟩
      matcher := ⟨h.matcher.1, fun _ => rfl, fun _ => rfl⟩
      written := ⟨h.written.1, fun _ => h.written.2 (.inl hh)⟩ }

theorem inv_deliverR (hr : s.ch.r = true) : Inv (deliverR s) := by
  obtain ⟨-, hh, hready, -⟩ := hsRelease_of_r h hr
  obtain ⟨hovf, hmark, hspace, -⟩ := h.shape
  exact
    { h with
      handshake := .inl ⟨rfl, hh, hready, rfl⟩
      shape := ⟨hovf, hmark, hspace, nofun, nofun, nofun⟩
      banks := nofun }

theorem inv_deliverEn : Inv (deliverEn s) := by
  obtain ⟨hmark, hspace, hidle, hlen, -⟩ := h.producer
  obtain ⟨-, -, -, hheld⟩ := h.shape
  unfold deliverEn
  split
  · next hen => exact { h with producer := ⟨hmark, hspace, hidle, hlen, nofun⟩, enable := fun _ => hen.symm }
  · next hen =>
    exact
      { h with
        producer := producerOk_of_empty rfl rfl rfl
        shape := ⟨nofun, nofun, nofun, hheld⟩
        banks := fun _ hne => absurd rfl hne
        enable := fun _ => (Bool.eq_false_of_not_eq_true hen).symm
        written := ⟨fun hne => absurd rfl hne, h.written.2⟩ }

theorem inv_deliver {c : Channel} (hc : channelEnabled c s = true) : Inv (deliver c s) := by
  cases c with
  | syncH => exact inv_deliverH h hc
  | syncR => exact inv_deliverR h hc
  | syncEn => exact inv_deliverEn h
  | syncPact => exact { h with enable := fun heq => heq.symm }
  | syncLost => exact { h with }

theorem inv_resetStep : Inv (resetStep s) where
  par := h.par
  handshake := .inl ⟨rfl, rfl, rfl, rfl⟩
  producer := producerOk_of_empty rfl rfl rfl
  shape := ⟨nofun, nofun, nofun, nofun, nofun, nofun⟩
  banks := nofun
  pending := ⟨nofun, fun _ => ⟨rfl, rfl⟩⟩
  matcher := ⟨⟨fun _ => rfl, fun _ => rfl⟩, nofun, nofun⟩
  enable := fun _ => rfl
  literal := ⟨List.length_replicate, Nat.zero_le _⟩
  mem := h.mem
  written := ⟨fun hne => absurd rfl hne, by rintro (hh | hr) <;> contradiction⟩
  result := by simp [ResultOk, resetStep, State.resetOf]

/-! ### The producer's tick -/

/-- In IDLE the level, the timer and the lost count are free. -/
theorem inv_retimed (hidle : s.p.state = .idle) (n : BitVec 8) (l : Level) (d : Dur) :
    Inv { s with p := { s.p with lost := n, lev := l, timer := d } } := by
  obtain ⟨-, -, hempty, hlen, hdis⟩ := h.producer
  exact { h with producer := ⟨by simp [hidle], by simp [hidle], hempty, hlen, hdis⟩ }

theorem inv_complete (hs : s.p.state = .space) : Inv (complete s) := by
  obtain ⟨hovf, -, heven, hheld⟩ := h.shape
  have hnidle : s.p.state ≠ .idle := by simp [hs]
  have hlen := len_bounds h hnidle
  cases hhold : s.p.hold
  · obtain ⟨-, hh, hready, hr⟩ := hsFree_of_hold h hhold
    rw [complete_free hhold]
    exact
      { h with
        handshake := .inr (.inl ⟨rfl, rfl, hready, hr⟩)
        producer := producerOk_of_empty rfl rfl rfl
        shape := ⟨nofun, nofun, nofun, fun _ => ⟨two_le_len_of_space h hs, hlen.2⟩, fun _ => hovf,
          fun _ ho => heven ho hs⟩
        banks := fun _ hne => absurd rfl hne
        pending := ⟨fun hr => by simp [hready] at hr, h.pending.2⟩
        written := ⟨fun hne => absurd rfl hne, fun _ => h.written.1 hnidle⟩ }
  · rw [complete_held hhold]
    exact
      { h with
        producer := producerOk_of_empty rfl rfl rfl
        shape := ⟨nofun, nofun, nofun, hheld⟩
        banks := fun _ hne => absurd rfl hne
        written := ⟨fun hne => absurd rfl hne, h.written.2⟩ }

theorem inv_frameEnd (e : Nat) : Inv (frameEnd e s) := by
  unfold frameEnd
  split
  · next hend => exact inv_complete h hend.1
  · exact h

/-- One more written slot keeps the form and range of the memory. -/
theorem memOk_setSample (b : Bank) {i : Nat} (hi : i < s.par.cap) (v : Dur) : MemOk (setSample b i v s) :=
  ⟨memWf_setSample b i v s h.mem.1, memInRange_memWrite _ _ b i v hi h.mem.2⟩

theorem inv_startedFrame (hen : s.p.en = true) (hidle : s.p.state = .idle)
    (hfree : ¬ (s.pcfg.bufmode = .single ∧ s.p.hold = true)) (v : Dur) : Inv (startedFrame v s) := by
  obtain ⟨hmin, hmax⟩ := cap_bounds h
  have hovf := (empty_of_idle h hidle).2
  obtain ⟨-, -, -, hheld⟩ := h.shape
  exact
    { h with
      producer := ⟨fun _ => rfl, nofun, nofun, fun _ => ⟨le_refl 1, Nat.le_of_succ_le hmin⟩,
        fun hdis => Bool.noConfusion (hen.symm.trans hdis)⟩
      shape := ⟨fun ho => Bool.noConfusion (hovf.symm.trans ho), fun _ _ => rfl, nofun, hheld⟩
      banks := by
        intro (hhold : s.p.hold = true) _
        refine ⟨?_, by simp [startedFrame, startBank, hhold]⟩
        show s.pcfg.bufmode = .double
        cases hm : s.pcfg.bufmode
        · rfl
        · exact absurd ⟨hm, hhold⟩ hfree
      mem := memOk_setSample h (startBank s) (i := 0) (by omega) v
      written := by
        refine ⟨fun _ i (hi : i < 1) => ?_, fun hheld i hi => memRead?_isSome_memWrite _ _ _ _ (h.written.2 hheld i hi)⟩
        obtain rfl : i = 0 := by omega
        simp [Written, startedFrame, memRead?_memWrite_same] }

/-- The frame under capture after Record: at least two samples, at CAP once it overflows, else one more than before. -/
theorem record_shape (hs : s.p.state ≠ .idle) (d : Nat) (lvl : Level) :
    2 ≤ (record d lvl s).p.len ∧ (record d lvl s).p.len ≤ s.par.cap ∧
    ((record d lvl s).p.ovf = true → (record d lvl s).p.len = s.par.cap) ∧
    ((record d lvl s).p.ovf = false → s.p.ovf = false ∧ (record d lvl s).p.len = s.p.len + 1) := by
  have hcap := cap_bounds h
  have hlen := len_bounds h hs
  by_cases hroom : s.p.len < s.par.cap
  · have hovf : s.p.ovf = true → s.p.len = s.par.cap := h.shape.1
    rw [record_room d lvl hroom]
    exact ⟨by show 2 ≤ s.p.len + 1; omega, hroom, fun ho => absurd (hovf ho) hroom.ne, fun ho => ⟨ho, rfl⟩⟩
  · rw [record_full d lvl (Nat.le_of_not_lt hroom)]
    exact ⟨by show 2 ≤ s.p.len; omega, hlen.2, fun _ => by show s.p.len = s.par.cap; omega, nofun⟩

/-- Every slot of the frame under capture is written after Record, the recorded one included. -/
theorem record_written (hs : s.p.state ≠ .idle) (d : Nat) (lvl : Level) :
    ∀ i < (record d lvl s).p.len, Written (record d lvl s) s.p.bank i := by
  have hcap := cap_bounds h
  have hlen := len_bounds h hs
  intro i hi
  rw [record_len d lvl (by omega) hlen.2] at hi
  rw [Written, record_mem]
  rcases Nat.lt_succ_iff_lt_or_eq.mp hi with hlt | rfl
  · exact memRead?_isSome_memWrite _ _ _ _ (h.written.1 hs i (hlt.trans_le (recordSlot_le_len hlen.2)))
  · simp [memRead?_memWrite_same]

/-- A data slot: from MARK to SPACE or from SPACE to MARK, with the level that p.state then stands for. -/
theorem inv_recordedData {q : PState} {l : Level}
    (hq : (s.p.state = .mark ∧ q = .space ∧ l = .space) ∨ (s.p.state = .space ∧ q = .mark ∧ l = .mark))
    (e : Nat) (lvl : Level) : Inv (recordedData q l e lvl s) := by
  have hs : s.p.state ≠ .idle := by rcases hq with ⟨hs, -⟩ | ⟨hs, -⟩ <;> simp [hs]
  have hqne : q ≠ .idle := by rcases hq with ⟨-, rfl, -⟩ | ⟨-, rfl, -⟩ <;> simp
  have hmark : q = .mark → l = .mark ∧ s.p.state = .space := by
    rcases hq with ⟨-, rfl, -⟩ | ⟨hspace, -, hl⟩
    · exact nofun
    · exact fun _ => ⟨hl, hspace⟩
  have hspace : q = .space → l = .space ∧ s.p.state = .mark := by
    rcases hq with ⟨hmark, -, hl⟩ | ⟨-, rfl, -⟩
    · exact fun _ => ⟨hl, hmark⟩
    · exact nofun
  obtain ⟨-, hodd, heven, hheld⟩ := h.shape
  obtain ⟨hmin, hmax⟩ := cap_bounds h
  obtain ⟨htwo, hcap, hfull, hroom⟩ := record_shape h hs e lvl
  have hwritten := record_written h hs e lvl
  simp only [Written, record_mem] at hwritten
  rw [recordedData_eq]
  exact
    { h with
      producer := ⟨fun hq => (hmark hq).1, fun hq => ⟨(hspace hq).1, htwo⟩, fun hq => absurd hq hqne,
        fun _ => ⟨Nat.le_of_succ_le htwo, hcap⟩, fun hen => absurd (idle_of_disabled h hen) hs⟩
      shape := by
        refine ⟨hfull, fun ho hq => ?_, fun ho hq => ?_, hheld⟩
        · obtain ⟨ho, hlen⟩ := hroom ho
          have := heven ho (hmark hq).2
          show (record e lvl s).p.len % 2 = 1
          omega
        · obtain ⟨ho, hlen⟩ := hroom ho
          have := hodd ho (hspace hq).2
          show (record e lvl s).p.len % 2 = 0
          omega
      banks := fun hhold _ => h.banks hhold hs
      mem := memOk_setSample h s.p.bank (recordSlot_lt (by omega)) _
      written := ⟨fun _ => hwritten, fun hh i hi => memRead?_isSome_memWrite _ _ _ _ (h.written.2 hh i hi)⟩ }

end

theorem inv_acceptChange {s : State} (h : Inv s) (hen : s.p.en = true) {l : Level} (hl : l ≠ s.p.lev) (e : Nat) :
    Inv (acceptChange l e s) := by
  cases hs : s.p.state with
  | idle =>
    by_cases hstart : l = .mark ∧ s.pcfg.gap.toNat ≤ e
    · obtain ⟨rfl, hgap⟩ := hstart
      by_cases hblock : s.pcfg.bufmode = .single ∧ s.p.hold = true
      · rw [acceptChange_blocked hs hgap hblock]
        exact inv_retimed h hs _ _ _
      · have hcap := cap_bounds h
        rw [acceptChange_start hs (empty_of_idle h hs).1 (by omega) hgap hblock]
        exact inv_startedFrame h hen hs hblock _
    · rw [acceptChange_idle hs hstart]
      exact inv_retimed h hs _ _ _
  | mark =>
    have hlev := lev_of_mark h hs
    have hspace : l = .space := by cases l <;> simp_all
    rw [acceptChange_mark hs]
    exact inv_recordedData h (.inl ⟨hs, rfl, hspace⟩) e .mark
  | space =>
    have hlev := lev_of_space h hs
    have hmark : l = .mark := by cases l <;> simp_all
    rw [acceptChange_space hs]
    exact inv_recordedData h (.inr ⟨hs, rfl, hmark⟩) e .space

theorem inv_levelPart {s : State} (h : Inv s) (hen : s.p.en = true) (l : Level) (e : Nat) : Inv (levelPart l e s) := by
  rcases levelPart_cases l e s with ⟨-, ht⟩ | ⟨hl, -, ht⟩
  · rw [ht]
    exact { h with }
  · rw [ht]
    exact inv_acceptChange h hen hl e

theorem inv_ptick {s : State} (h : Inv s) (l : Level) : Inv (ptick l s) := by
  cases hen : s.p.en
  · rw [ptick_disabled l hen]
    exact inv_retimed h (idle_of_disabled h hen) s.p.lost l 0
  · rw [ptick_enabled l hen]
    exact inv_levelPart (inv_frameEnd h _) (by simp [hen]) l _

/-! ### One step of any agent -/

theorem inv_takeEvent {s : State} (h : Inv s) : Inv (takeEvent s) := by
  obtain ⟨a, d, ht⟩ := takeEvent_eq s
  rw [ht]
  exact { h with }

theorem inv_runEvent {e : Event} {s t : State} (h : Inv s) (ht : runEvent e s = .next t) : Inv t := by
  rcases runEvent_cases ht with ⟨m, -, rfl⟩ | ⟨a, -, ha⟩ | ⟨-, -, rfl⟩ | ⟨c, -, hc, rfl⟩ | ⟨-, rfl⟩ | ⟨rfl, -⟩
  · exact inv_ptick h _
  · exact inv_hostAccess h ha
  · exact inv_matcherStep h
  · exact inv_deliver h hc
  · exact inv_resetStep h
  · exact h

/-- Settles O43: the agent's step keeps the invariant, one lemma per agent (`inv_runEvent`), and the choice of the agent
is no part of it. -/
theorem stepKeepsInv : Obligations.StepKeepsInv := by
  unfold Obligations.StepKeepsInv
  exact fun s t h ht => inv_runEvent (inv_takeEvent h) ht

/-- Only a tick stores to the sample memory. -/
theorem runEvent_mem {e : Event} {s t : State} (ht : runEvent e s = .next t) (he : ∀ m, e ≠ .tick m) :
    t.mem = s.mem := by
  rcases runEvent_cases ht with ⟨m, rfl, -⟩ | ⟨a, -, ha⟩ | ⟨-, -, rfl⟩ | ⟨c, -, -, rfl⟩ | ⟨-, rfl⟩ | ⟨rfl, -⟩
  · exact absurd rfl (he m)
  · exact (hostAccess_producerDomain ha).2.1
  · simp
  · cases c <;> simp [deliver]
  · rfl
  · rfl

/-- With a frame held, the frame-end check leaves it held in its bank. -/
theorem frameEnd_held (e : Nat) {s : State} (hhold : s.p.hold = true) :
    (frameEnd e s).p.hold = true ∧ (frameEnd e s).p.hbank = s.p.hbank := by
  unfold frameEnd
  split <;> simp [complete_held, hhold]

/-- While a frame is held, a tick stores only to the other bank (R55). -/
theorem ptick_held_memRead? {s : State} (h : Inv s) (hhold : s.p.hold = true) (l : Level) {i : Nat} (hi : i < 256) :
    memRead? (ptick l s).mem (slotKey s.p.hbank i) = memRead? s.mem (slotKey s.p.hbank i) := by
  have hend := inv_frameEnd h (elapsed s)
  obtain ⟨hheld, hbank⟩ := frameEnd_held (elapsed s) hhold
  obtain ⟨hmin, hmax⟩ := cap_bounds hend
  generalize hu : frameEnd (elapsed s) s = u at hend hheld hbank hmin hmax
  have hslot : recordSlot u < 256 := (recordSlot_lt (by omega)).trans_le (by omega)
  have hother : ∀ {b : Bank} {j : Nat}, j < 256 → b = otherBank s.p.hbank → slotKey s.p.hbank i ≠ slotKey b j := by
    rintro b j hj rfl hkey
    exact otherBank_ne _ (slotKey_inj hi hj hkey).1.symm
  refine ptick_memRead?_of_ne (fun hs => ?_) fun hs => ?_
  · rw [hu] at hs ⊢
    exact hother hslot (hbank ▸ (hend.banks hheld hs).2)
  · rw [hu]
    exact hother (by simpa [recordSlot] using hslot) (by simp [selectBank, hheld, hbank])

/-- Settles O45: a frame in flight or pending is held, and only a tick stores, to the other bank. -/
theorem heldBankUntouched : Obligations.HeldBankUntouched := by
  unfold Obligations.HeldBankUntouched
  intro s t h hfp hstep i hi
  have hhold : s.p.hold = true := hfp.elim (fun hh => (hsFlight_of_h h hh).1) fun hr => (hsPending_of_ready h hr).1
  by_cases htick : ∃ m, nextEvent s = .tick m
  · obtain ⟨m, hm⟩ := htick
    rw [step, hm] at hstep
    cases hstep
    simpa using ptick_held_memRead? (inv_takeEvent h) (by simpa) (levelOf m) hi
  · rw [runEvent_mem hstep fun m hm => htick ⟨m, hm⟩]
    simp

end Sys2Proof.Proofs
end

section
/-! PROOFS. The obligations of 42_handoff.md: RESUME, the deliveries, the pending frame and the lost count. -/

namespace Sys2Proof.Proofs
open Sys2Proof.Machine Sys2Proof.Safety

/-! ### RESUME (R160) -/

theorem execResume_busy {s : State} (hb : s.status.mbusy = true) :
    execResume s = .next (raiseCmdError .busyCmd s) := by
  simp [execResume, hb]

theorem execResume_pending {s : State} (hb : s.status.mbusy = false) (hr : s.status.ready = true) :
    execResume s = .next (releaseFrame s) := by
  simp [execResume, hb, hr]

theorem execResume_noFrame {s : State} (hb : s.status.mbusy = false) (hr : s.status.ready = false) :
    execResume s = .next s := by
  simp [execResume, hb, hr]

/-- Settles O7: one equation per case of MBUSY and READY. -/
theorem resumeReleasesFrame : Obligations.ResumeReleasesFrame := by
  unfold Obligations.ResumeReleasesFrame
  exact ⟨fun _ => execResume_pending, fun _ => execResume_noFrame, fun _ => execResume_busy⟩

/-! ### The deliveries (R158, R161, R164, R170-R172) -/

theorem runEvent_deliver {c : Channel} {s : State} (hc : channelEnabled c s = true) :
    runEvent (.deliver c) s = .next (deliver c s) := by
  simp [runEvent, hc]

theorem runEvent_deliver_disabled {c : Channel} {s : State} (hc : channelEnabled c s = false) :
    runEvent (.deliver c) s = .next s := by
  simp [runEvent, hc]

theorem deliverEn_enable {s : State} (hen : s.en = true) : deliverEn s = { s with p := { s.p with en := true } } := by
  simp [deliverEn, hen]

theorem deliverEn_disable {s : State} (hen : s.en = false) :
    deliverEn s = { s with p := { s.p with en := false, state := .idle, len := 0, ovf := false, timer := 0 } } := by
  simp [deliverEn, hen]

/-- Settles O37: SYNC_H is enabled while ch.h = 1, and its step is `deliverH`. -/
theorem handoffDelivered : Obligations.HandoffDelivered := by
  unfold Obligations.HandoffDelivered
  exact fun s => ⟨rfl, runEvent_deliver (c := .syncH)⟩

/-- Settles O38: SYNC_R is enabled while ch.r = 1, and its step is `deliverR`. -/
theorem releaseDelivered : Obligations.ReleaseDelivered := by
  unfold Obligations.ReleaseDelivered
  exact fun s => ⟨rfl, runEvent_deliver (c := .syncR)⟩

/-- Settles O39: the step of SYNC_EN is `deliverEn`, by the value of CTRL.EN. -/
theorem enableDelivered : Obligations.EnableDelivered := by
  unfold Obligations.EnableDelivered
  intro s
  have henabled : channelEnabled .syncEn s = true ↔ s.p.en ≠ s.en := bne_iff_ne
  refine ⟨henabled, fun hne => ⟨fun hen => ?_, fun hen => ?_⟩⟩
  · rw [runEvent_deliver (henabled.mpr hne), deliver, deliverEn_enable hen]
  · rw [runEvent_deliver (henabled.mpr hne), deliver, deliverEn_disable hen]

/-- Settles O40: each level channel compares its destination with its source, and its step copies. -/
theorem levelChannelsCopy : Obligations.LevelChannelsCopy := by
  unfold Obligations.LevelChannelsCopy
  intro s
  have hpact : channelEnabled .syncPact s = true ↔ s.status.pact ≠ s.p.en := bne_iff_ne
  have hlost : channelEnabled .syncLost s = true ↔ s.status.lostcnt ≠ s.p.lost := bne_iff_ne
  exact ⟨hpact, hlost, fun hne => runEvent_deliver (hpact.mpr hne), fun hne => runEvent_deliver (hlost.mpr hne),
    fun _ => runEvent_deliver_disabled⟩

/-! ### The FRAME window (R222) -/

theorem frameRead_below {s : State} {i : Nat} (hr : s.status.ready = true) (hi : i < frameLen s) :
    frameRead s i = (sample s s.cbank i).setWidth 32 := by
  simp [frameRead, hr, hi]

theorem frameRead_beyond {s : State} {i : Nat} (hi : frameLen s ≤ i) : frameRead s i = 0 := by
  simp [frameRead, Nat.not_lt.mpr hi]

/-- The payload's length fits FLEN, so delivery does not cut it. -/
theorem flen_deliverH {s : State} (h : Inv s) (hh : s.ch.h = true) : (deliverH s).flen.toNat = s.p.hlen := by
  obtain ⟨hhold, -⟩ := hsFlight_of_h h hh
  obtain ⟨-, -, -, hlen, -⟩ := h.shape
  have hfit := hlen hhold
  have hcap := cap_bounds h
  simp only [deliverH_fields, BitVec.toNat_ofNat]
  omega

/-- Settles O41: the window shows bank p.hbank below FLEN = p.hlen, and the payload's slots are written (R57). -/
theorem deliveredFrameReadable : Obligations.DeliveredFrameReadable := by
  unfold Obligations.DeliveredFrameReadable
  intro s h hh
  have hlen := flen_deliverH h hh
  refine ⟨deliverH s, runEvent_deliver (c := .syncH) hh, hlen, fun i hi => ⟨h.written.2 (.inl hh) i hi, ?_⟩,
    fun i hi => frameRead_beyond (hlen.trans_le hi)⟩
  exact frameRead_below (s := deliverH s) rfl (hi.trans_eq hlen.symm)

/-! ### The pending frame (R56, R71) -/

/-- `t` has the pending frame of `s`: READY, FLEN, FOVF and the bank. -/
def SameFrame (s t : State) : Prop :=
  t.status.ready = s.status.ready ∧ t.flen = s.flen ∧ t.status.fovf = s.status.fovf ∧ t.cbank = s.cbank

/-- Of all writes, only RESUME of a pending frame reaches the frame. -/
theorem writeEffect_frame {s t : State} (ht : WriteEffect s t) :
    SameFrame s t ∨ (t.status.ready = false ∧ s.status.mbusy = false) := by
  cases ht
  case release hb hr => exact .inr ⟨by simp, hb⟩
  all_goals exact .inl (by simp [SameFrame])

theorem hostAccess_frame {a : Access} {s t : State} (ht : hostAccess a s = .next t) :
    SameFrame s t ∨ (t.status.ready = false ∧ s.status.mbusy = false) := by
  rcases hostAccess_cases ht with rfl | ⟨-, r, rfl⟩ | ⟨-, hwrite⟩
  · exact .inl (by simp [SameFrame])
  · exact .inl (by simp [SameFrame])
  · simpa [SameFrame] using writeEffect_frame hwrite

/-- With no hand-off in flight, a step other than RESET leaves the frame or releases it. -/
theorem runEvent_frame {e : Event} {s t : State} (ht : runEvent e s = .next t) (he : e ≠ .reset) (hh : s.ch.h = false) :
    SameFrame s t ∨ (t.status.ready = false ∧ s.status.mbusy = false) := by
  rcases runEvent_cases ht with ⟨m, -, rfl⟩ | ⟨a, -, ha⟩ | ⟨-, -, rfl⟩ | ⟨c, -, hc, rfl⟩ | ⟨hreset, -⟩ | ⟨rfl, -⟩
  · exact .inl (by simp [SameFrame])
  · exact hostAccess_frame ha
  · exact .inl (by simp [SameFrame])
  · cases c
    case syncH => exact absurd hh (by simpa [channelEnabled] using hc)
    all_goals exact .inl (by simp [SameFrame, deliver])
  · exact absurd hreset he
  · exact .inl (by simp [SameFrame])

/-- No step changes a sample of the pending frame: it lies in the held bank (R55). -/
theorem step_pending_sample {s t : State} (h : Inv s) (hr : s.status.ready = true) (ht : step s = .next t) :
    ∀ i < frameLen s, sample t s.cbank i = sample s s.cbank i := by
  intro i hi
  obtain ⟨hbank, -, -⟩ := h.pending.1 hr
  have hlt : i < 256 := hi.trans s.flen.isLt
  rw [sample, sample, hbank, heldBankUntouched s t h (.inr hr) ht i hlt]

theorem step_frame {s t : State} (ht : step s = .next t) (he : nextEvent s ≠ .reset) (hh : s.ch.h = false) :
    SameFrame s t ∨ (t.status.ready = false ∧ s.status.mbusy = false) := by
  simpa [SameFrame] using runEvent_frame ht he (by simpa)

/-- The FRAME window shows nothing but the frame and its samples. -/
theorem frameRead_congr {s t : State} (hsame : SameFrame s t)
    (hsample : ∀ i < frameLen s, sample t s.cbank i = sample s s.cbank i) (i : Nat) : frameRead t i = frameRead s i := by
  obtain ⟨hready, hflen, -, hcbank⟩ := hsame
  have hlen : frameLen t = frameLen s := congrArg BitVec.toNat hflen
  rw [frameRead, frameRead, hready, hlen, hcbank]
  split
  · next hin => rw [hsample i hin.2]
  · rfl

/-- Settles O44: the frame is kept or released (`step_frame`), only RESUME clears READY (`ready_falls`), and the samples
are those of the held bank. -/
theorem pendingFrameStable : Obligations.PendingFrameStable := by
  unfold Obligations.PendingFrameStable
  intro s t h hr ht
  by_cases hreset : nextEvent s = .reset
  · exact .inr (.inr hreset)
  obtain ⟨-, hh, -, -⟩ := hsPending_of_ready h hr
  rcases step_frame ht hreset hh with hsame | ⟨hreleased, hb⟩
  · have hsample := step_pending_sample h hr ht
    have hread := frameRead_congr hsame hsample
    obtain ⟨hready, hflen, hfovf, hcbank⟩ := hsame
    exact .inl ⟨hready.trans hr, hflen, hfovf, hcbank, by rwa [hcbank], hread⟩
  · exact .inr (.inl ⟨hreleased, (step_statusEffect ht hreset).ready_falls hr hreleased, hb⟩)

/-! ### The lost count (R136, R150, R154) -/

/-- A frame end counts at most one lost frame, and only for a frame captured while another is held. -/
theorem frameEnd_lost (e : Nat) (s : State) :
    (frameEnd e s).p.lost = s.p.lost ∨
    (s.p.state ≠ .idle ∧ s.p.hold = true ∧ (frameEnd e s).p.lost = s.p.lost + 1) := by
  by_cases hend : s.p.state = .space ∧ s.pcfg.gap.toNat ≤ e
  · rw [frameEnd_of hend.1 hend.2]
    cases hhold : s.p.hold
    · exact .inl (by simp [complete_free hhold])
    · exact .inr ⟨by simp [hend.1], rfl, by simp [complete_held hhold]⟩
  · exact .inl (by rw [frameEnd_of_not hend])

/-- An accepted change counts at most one lost frame, and only a start blocked in SINGLE mode. -/
theorem acceptChange_lost (l : Level) (e : Nat) (s : State) :
    (acceptChange l e s).p.lost = s.p.lost ∨
    (s.pcfg.bufmode = .single ∧ (acceptChange l e s).p.lost = s.p.lost + 1) := by
  rcases changeCase_cases l e s with ⟨-, h⟩ | ⟨-, -, -, hsingle, -, h⟩ | ⟨-, -, -, -, h⟩ | ⟨-, h⟩ | ⟨-, h⟩
  case inr.inl => exact .inr ⟨hsingle, by simp [acceptChange, h]⟩
  all_goals exact .inl (by simp [acceptChange, h])

theorem levelPart_lost (l : Level) (e : Nat) (s : State) :
    (levelPart l e s).p.lost = s.p.lost ∨
    (s.pcfg.bufmode = .single ∧ (levelPart l e s).p.lost = s.p.lost + 1) := by
  rcases levelPart_cases l e s with ⟨-, h⟩ | ⟨-, -, h⟩ <;> rw [h]
  · exact .inl (by simp)
  · exact acceptChange_lost l e s

/-- A tick counts at most one lost frame: one that a frame end counts was captured beside a held frame, so in DOUBLE
mode (R55, R153), where no start is blocked. -/
theorem ptick_lost {s : State} (h : Inv s) (l : Level) :
    (ptick l s).p.lost = s.p.lost ∨ (ptick l s).p.lost = s.p.lost + 1 := by
  cases hen : s.p.en
  · exact .inl (by rw [ptick_disabled l hen])
  · rw [ptick_enabled l hen]
    rcases frameEnd_lost (elapsed s) s with hend | ⟨hs, hhold, hend⟩
    · rcases levelPart_lost l (elapsed s) (frameEnd (elapsed s) s) with hlevel | ⟨-, hlevel⟩
      · exact .inl (hlevel.trans hend)
      · exact .inr (hlevel.trans (by rw [hend]))
    · have hdouble : s.pcfg.bufmode = .double := (h.banks hhold hs).1
      rcases levelPart_lost l (elapsed s) (frameEnd (elapsed s) s) with hlevel | ⟨hsingle, -⟩
      · exact .inr (hlevel.trans hend)
      · exact absurd hsingle (by simp [hdouble])

theorem deliver_lost (c : Channel) (s : State) : (deliver c s).p.lost = s.p.lost := by
  cases c <;> simp [deliver]

/-- Settles O46: only a tick (`ptick_lost`) and RESET write p.lost. -/
theorem lostCountsByOne : Obligations.LostCountsByOne := by
  unfold Obligations.LostCountsByOne
  intro s t h ht
  rcases runEvent_cases ht with ⟨m, he, rfl⟩ | ⟨a, -, ha⟩ | ⟨-, -, rfl⟩ | ⟨c, -, -, rfl⟩ | ⟨he, rfl⟩ | ⟨rfl, -⟩
  · rcases ptick_lost (inv_takeEvent h) (levelOf m) with hkept | hcounted
    · exact .inl (by simpa using hkept)
    · exact .inr (.inl ⟨by simpa using hcounted, m, he⟩)
  · exact .inl (by simp [hostAccess_producerDomain ha])
  · exact .inl (by simp)
  · exact .inl (by simp [deliver_lost])
  · exact .inr (.inr ⟨rfl, he⟩)
  · exact .inl (by simp)

end Sys2Proof.Proofs
end

section
/-! PROOFS. The obligations of 43_decode.md: the literal check, the generic decode, and what the completion writes. -/

namespace Sys2Proof.Proofs
open Sys2Proof.Machine Sys2Proof.Safety

/-! ### LitMatch (R183, R202) -/

theorem litMatch_wrongLength {s : State} (h : frameLen s ≠ litCount s + 1) :
    litMatch s = rawCount s 0 (litCount s + 1) :=
  if_pos h

theorem litMatch_rightLength {s : State} (h : frameLen s = litCount s + 1) : litMatch s = litScan s (litCount s) 0 :=
  if_neg (not_not.mpr h)

/-- Settles O14: with the right length the scan decides, and it succeeds or stops at a slot out of tolerance. -/
theorem litMatchRepeatsExactly : Obligations.LitMatchRepeatsExactly := by
  unfold Obligations.LitMatchRepeatsExactly
  intro s
  by_cases hlen : frameLen s = litCount s + 1
  · rw [litMatch_rightLength hlen]
    rcases litScan_cases s (litCount s) 0 with ⟨hall, hscan⟩ | ⟨m, -, hm, -, hfail, hscan⟩
    · exact ⟨fun _ => ⟨hlen, fun k hk => hall k (Nat.zero_le k) (by omega)⟩, fun _ => hscan⟩
    · refine ⟨fun h => ?_, fun ⟨_, hall⟩ => ?_⟩
      · rw [hscan] at h
        cases h
      · rw [hall m (by omega)] at hfail
        cases hfail
  · rw [litMatch_wrongLength hlen]
    exact ⟨fun h => Verdict.noConfusion h, fun ⟨h, _⟩ => absurd h hlen⟩

/-- Settles O15: the slot at which the scan stops is the first one out of tolerance, as it passed all before it. -/
theorem litMatchFirstFailure : Obligations.LitMatchFirstFailure := by
  unfold Obligations.LitMatchFirstFailure
  refine ⟨fun s hlen => litMatch_wrongLength hlen, fun s k hlen hk hbefore hfail => ?_⟩
  rw [litMatch_rightLength hlen]
  rcases litScan_cases s (litCount s) 0 with ⟨hall, -⟩ | ⟨m, -, -, hpassed, hm, hscan⟩
  · rw [hall k (Nat.zero_le k) (by omega)] at hfail
    cases hfail
  · have hle : m ≤ k := by
      by_contra hlt
      rw [hpassed k (Nat.zero_le k) (by omega)] at hfail
      cases hfail
    have hge : k ≤ m := by
      by_contra hlt
      rw [hbefore m (by omega)] at hm
      cases hm
    obtain rfl := Nat.le_antisymm hle hge
    exact hscan

/-! ### The header (R192-R194, R196) -/

theorem regionStart_eq (s : State) :
    regionStart s = if s.mcfg.tplHdrspace = 0 then hdrSpaceSlot s else hdrSpaceSlot s + 1 := by
  unfold regionStart hdrSpaceSlot
  split <;> split <;> rfl

theorem one_le_regionStart (s : State) : 1 ≤ regionStart s := by
  unfold regionStart
  omega

theorem regionEnd_le_frameLen (s : State) : regionEnd s ≤ frameLen s := by
  unfold regionEnd
  split <;> omega

/-- A header slot fits, and the running index goes on past it, or it reports a failure. -/
theorem headerSlot_fits_or_error (s : State) (x : Dur) (why : Reason) (c : Nat) :
    (headerFits s x c ∧ headerSlot s x why c = .ok (if x = 0 then c else c + 1)) ∨
    (¬ headerFits s x c ∧ ∃ r, headerSlot s x why c = .error r) := by
  rcases headerSlot_cases s x why c with ⟨hfit, h⟩ | ⟨hfit, -, h⟩ | ⟨hfit, -, -, -, h⟩
  · exact .inl ⟨hfit, h⟩
  · exact .inr ⟨hfit, _, h⟩
  · exact .inr ⟨hfit, _, h⟩

/-- What a header slot that fails reports: the slot is missing, or it is out of tolerance. -/
theorem headerSlot_error {s : State} {x : Dur} {why : Reason} {c : Nat} {r : Verdict}
    (h : headerSlot s x why c = .error r) :
    x ≠ 0 ∧ ((frameLen s ≤ c ∧ r = rawCount s c (rawLen s)) ∨
      (c < frameLen s ∧ s.mcfg.hdrskip = false ∧ tolHolds s (frameSlot s c) x = false ∧
        r = .noMatch why c x (frameSlot s c))) := by
  rcases headerSlot_cases s x why c with ⟨-, hr⟩ | ⟨hfit, hc, hr⟩ | ⟨hfit, hc, hskip, htol, hr⟩ <;> rw [hr] at h <;>
    cases h
  · exact ⟨fun hx => hfit (.inl hx), .inl ⟨hc, rfl⟩⟩
  · exact ⟨fun hx => hfit (.inl hx), .inr ⟨hc, hskip, htol, rfl⟩⟩

/-- The order of R184: the length, the header mark, the header space, and what follows the header. -/
theorem generic_cases (s : State) :
    (¬ (rawLen s = 0 ∨ frameLen s = rawLen s) ∧ generic s = rawCount s 0 (rawLen s)) ∨
    ((rawLen s = 0 ∨ frameLen s = rawLen s) ∧ ¬ headerFits s s.mcfg.tplHdrmark 1 ∧
      headerSlot s s.mcfg.tplHdrmark .headerMark 1 = .error (generic s)) ∨
    ((rawLen s = 0 ∨ frameLen s = rawLen s) ∧ headerFits s s.mcfg.tplHdrmark 1 ∧
      ¬ headerFits s s.mcfg.tplHdrspace (hdrSpaceSlot s) ∧
      headerSlot s s.mcfg.tplHdrspace .headerSpace (hdrSpaceSlot s) = .error (generic s)) ∨
    ((rawLen s = 0 ∨ frameLen s = rawLen s) ∧ headerFits s s.mcfg.tplHdrmark 1 ∧
      headerFits s s.mcfg.tplHdrspace (hdrSpaceSlot s) ∧ generic s = genericBody s (regionStart s)) := by
  by_cases hlen : rawLen s = 0 ∨ frameLen s = rawLen s
  · have hraw : ¬ (rawLen s ≠ 0 ∧ frameLen s ≠ rawLen s) := by tauto
    rw [generic, if_neg hraw]
    rcases headerSlot_fits_or_error s s.mcfg.tplHdrmark .headerMark 1 with ⟨hmark, h1⟩ | ⟨hmark, r, h1⟩
    · rw [show (if s.mcfg.tplHdrmark = 0 then 1 else 1 + 1) = hdrSpaceSlot s from rfl] at h1
      rcases headerSlot_fits_or_error s s.mcfg.tplHdrspace .headerSpace (hdrSpaceSlot s) with
        ⟨hspace, h2⟩ | ⟨hspace, r, h2⟩
      · rw [← regionStart_eq] at h2
        exact .inr (.inr (.inr ⟨hlen, hmark, hspace, by simp only [h1, h2]⟩))
      · exact .inr (.inr (.inl ⟨hlen, hmark, hspace, by simp only [h1, h2]⟩))
    · exact .inr (.inl ⟨hlen, hmark, by simp only [h1]⟩)
  · exact .inl ⟨hlen, if_pos (not_or.mp hlen)⟩

/-! ### The data region and the stop mark (R195-R199, R203, R204) -/

/-- The bits of the data region. -/
def regionBits (s : State) : List Bool := bitsFrom s (regionStart s) (regionEnd s - regionStart s)

/-- Everything before the stop mark passes: `frameFits` without its last clause. -/
def regionFits (s : State) : Prop :=
  (rawLen s = 0 ∨ frameLen s = rawLen s) ∧
  headerFits s s.mcfg.tplHdrmark 1 ∧
  headerFits s s.mcfg.tplHdrspace (hdrSpaceSlot s) ∧
  (s.mcfg.stop = true → regionStart s ≤ frameLen s - 1) ∧
  ∀ i, regionStart s ≤ i → i < regionEnd s → slotFits s i

theorem frameFits_iff (s : State) :
    frameFits s ↔
      regionFits s ∧ (s.mcfg.stop = true → tolHolds s (frameSlot s (frameLen s - 1)) (stopMark s) = true) := by
  simp only [frameFits, regionFits, and_assoc]

/-- A data region that fits leaves its bits, and the verdict to the stop mark if there is one. -/
theorem genericBody_of_slotsFit {s : State} {c : Nat} (hroom : s.mcfg.stop = true → c ≤ frameLen s - 1)
    (hslots : ∀ i, c ≤ i → i < regionEnd s → slotFits s i) :
    genericBody s c =
      if s.mcfg.stop = true then
        stopCheck s ((bitsFrom s c (regionEnd s - c)).foldl shiftIn 0) (bitsFrom s c (regionEnd s - c)).length
      else .matched ((bitsFrom s c (regionEnd s - c)).foldl shiftIn 0) (bitsFrom s c (regionEnd s - c)).length := by
  rcases genericBody_cases s c with ⟨-, -, hmark, h⟩ | ⟨hs, hc, -⟩ | ⟨j, -, -, hj, hend, hfit, -⟩ | ⟨hs, -, -, hmark, h⟩
  · rw [h]
    split
    · next hs => rw [stopCheck, if_pos (hmark hs)]
    · rfl
  · exact absurd (hroom hs) (by omega)
  · exact absurd (hslots j hj hend) hfit
  · rw [h, if_pos hs, stopCheck, if_neg (by simp [hmark])]

theorem generic_of_regionFits {s : State} (h : regionFits s) :
    generic s =
      if s.mcfg.stop = true then stopCheck s (BitVec.ofNat 32 (bitsValue (regionBits s))) (regionBits s).length
      else .matched (BitVec.ofNat 32 (bitsValue (regionBits s))) (regionBits s).length := by
  obtain ⟨hlen, hmark, hspace, hroom, hslots⟩ := h
  have hvalue : (regionBits s).foldl shiftIn 0 = BitVec.ofNat 32 (bitsValue (regionBits s)) := by
    simp [foldl_shiftIn]
  rw [← hvalue]
  rcases generic_cases s with ⟨hno, -⟩ | ⟨-, hno, -⟩ | ⟨-, -, hno, -⟩ | ⟨-, -, -, hbody⟩
  · exact absurd hlen hno
  · exact absurd hmark hno
  · exact absurd hspace hno
  · rw [hbody]
    exact genericBody_of_slotsFit hroom hslots

theorem generic_of_frameFits {s : State} (h : frameFits s) :
    generic s = .matched (BitVec.ofNat 32 (bitsValue (regionBits s))) (regionBits s).length := by
  obtain ⟨hregion, hmark⟩ := (frameFits_iff s).mp h
  rw [generic_of_regionFits hregion]
  split
  · next hs => exact if_pos (hmark hs)
  · rfl

theorem headerSlot_ne_error_matched (s : State) (x : Dur) (why : Reason) (c : Nat) (v : Word) (b : Nat) :
    headerSlot s x why c ≠ .error (.matched v b) := by
  intro h
  obtain ⟨-, ⟨-, hr⟩ | ⟨-, -, -, hr⟩⟩ := headerSlot_error h <;> cases hr

/-- Every clause of `frameFits` is needed: where one fails, generic answers NoMatch. -/
theorem frameFits_of_generic_matched {s : State} {v : Word} {b : Nat} (h : generic s = .matched v b) : frameFits s := by
  rcases generic_cases s with ⟨-, hr⟩ | ⟨-, -, hr⟩ | ⟨-, -, -, hr⟩ | ⟨hlen, hmark, hspace, hbody⟩
  · rw [hr] at h
    cases h
  · exact absurd (h ▸ hr) (headerSlot_ne_error_matched s _ _ _ v b)
  · exact absurd (h ▸ hr) (headerSlot_ne_error_matched s _ _ _ v b)
  · rw [hbody] at h
    rcases genericBody_cases s (regionStart s) with ⟨hroom, hslots, hstop, -⟩ | ⟨-, -, hr⟩ |
      ⟨j, x, -, -, -, -, -, -, -, hr⟩ | ⟨-, -, -, -, hr⟩
    · exact ⟨hlen, hmark, hspace, hroom, hslots, hstop⟩
    all_goals
      rw [hr] at h
      cases h

/-- Settles O16: `frameFits` is needed and enough, and the result is then the bits of the region. -/
theorem genericMatchesExactly : Obligations.GenericMatchesExactly := by
  unfold Obligations.GenericMatchesExactly
  refine fun s v b => ⟨⟨fun h => ?_, fun ⟨hfits, hb, hv⟩ => ?_⟩, fun h => ?_⟩
  · have hfits := frameFits_of_generic_matched h
    rw [generic_of_frameFits hfits] at h
    cases h
    exact ⟨hfits, rfl, rfl⟩
  · rw [hb, hv]
    exact generic_of_frameFits hfits
  · have hok := verdictOk_generic s
    rwa [h] at hok

/-- Settles O17: `generic_cases` gives the order, `headerSlot_error` and `genericBody_cases` each failure. -/
theorem genericFailureGenuine : Obligations.GenericFailureGenuine := by
  unfold Obligations.GenericFailureGenuine
  intro s why i x o h lengthOk markOk spaceOk
  rcases generic_cases s with ⟨hlen, hr⟩ | ⟨hlen, -, hr⟩ | ⟨hlen, hmark, -, hr⟩ | ⟨hlen, hmark, hspace, hbody⟩
  · rw [hr] at h
    cases h
    exact .inl ⟨rfl, rfl, rfl, .inl ⟨rfl, hlen⟩⟩
  · rw [h] at hr
    obtain ⟨hx, ⟨hshort, hr⟩ | ⟨hi, hskip, htol, hr⟩⟩ := headerSlot_error hr
    · cases hr
      exact .inl ⟨rfl, rfl, rfl, .inr (.inl ⟨hlen, hx, rfl, hshort⟩)⟩
    · cases hr
      exact .inr (.inl ⟨hlen, rfl, rfl, hi, hx, rfl, rfl, hskip, htol⟩)
  · rw [h] at hr
    obtain ⟨hx, ⟨hshort, hr⟩ | ⟨hi, hskip, htol, hr⟩⟩ := headerSlot_error hr
    · cases hr
      exact .inl ⟨rfl, rfl, rfl, .inr (.inr (.inl ⟨hlen, hmark, hx, rfl, hshort⟩))⟩
    · cases hr
      exact .inr (.inr (.inl ⟨hlen, hmark, rfl, rfl, hi, hx, rfl, rfl, hskip, htol⟩))
  · rw [hbody] at h
    have hstart := one_le_regionStart s
    have hend := regionEnd_le_frameLen s
    rcases genericBody_cases s (regionStart s) with ⟨-, -, -, hr⟩ | ⟨hstop, hshort, hr⟩ |
      ⟨j, y, hroom, hj, hjend, hfit, hbefore, hy, htol, hr⟩ | ⟨hstop, hroom, hslots, htol, hr⟩ <;> rw [hr] at h <;>
      cases h
    · exact .inl ⟨rfl, rfl, rfl, .inr (.inr (.inr ⟨hlen, hmark, hspace, hstop, rfl, by omega⟩))⟩
    · exact .inr (.inr (.inr ⟨hlen, hmark, hspace, hroom, hj, by omega, rfl, htol, fun m hm _ => hbefore m hm,
        .inl ⟨rfl, hjend, hfit, hy⟩⟩))
    · exact .inr (.inr (.inr ⟨hlen, hmark, hspace, fun _ => hroom, hroom, by omega, rfl, htol,
        fun m hm hmend _ => hslots m hm hmend, .inr ⟨rfl, hstop, rfl, rfl⟩⟩))

/-! ### Frames of a given shape (R195, R197, R203, R204, R207) -/

theorem slotFits_bit {s : State} {i : Nat} {bit : Bool} (hc : carriesBit s i = true)
    (hone : tolHolds s (frameSlot s i) (oneValue s) = bit)
    (hzero : bit = false → tolHolds s (frameSlot s i) (zeroValue s) = true) : slotFits s i := by
  rw [slotFits, if_pos hc]
  cases bit
  · exact .inr (hzero rfl)
  · exact .inl hone

theorem slotFits_const {s : State} {i : Nat} (hc : carriesBit s i = false)
    (h : tolHolds s (frameSlot s i) (constValue s) = true) : slotFits s i := by
  rwa [slotFits, if_neg (by simp [hc])]

theorem bitsFrom_of_const {s : State} {i : Nat} (hc : carriesBit s i = false) (n : Nat) :
    bitsFrom s i n = bitsFrom s (i + 1) (n - 1) := by
  cases n with
  | zero => simp [bitsFrom_zero]
  | succ n => simp [bitsFrom_succ, hc]

/-- From a bit-carrying slot on, every second slot carries a bit; a constant slot after the last one adds nothing. -/
theorem bitsFrom_of_bit {s : State} {i n : Nat} (bits : List Bool) (hc : carriesBit s i = true)
    (hn : (n + 1) / 2 = bits.length)
    (hone : ∀ k (h : k < bits.length), tolHolds s (frameSlot s (i + 2 * k)) (oneValue s) = bits[k]) :
    bitsFrom s i n = bits := by
  induction bits generalizing i n with
  | nil =>
    obtain rfl : n = 0 := by simp at hn; omega
    exact bitsFrom_zero s i
  | cons bit bits ih =>
    obtain ⟨m, rfl⟩ : ∃ m, n = m + 1 := ⟨n - 1, by simp at hn; omega⟩
    have hconst : carriesBit s (i + 1) = false := by simp [carriesBit_succ, hc]
    have hfirst : tolHolds s (frameSlot s i) (oneValue s) = bit := hone 0 (by simp)
    have hrest : bitsFrom s (i + 1 + 1) (m - 1) = bits := by
      refine ih (by simp [carriesBit_succ, hc]) (by simp at hn; omega) fun k hk => ?_
      have h := hone (k + 1) (by simpa using hk)
      rwa [show i + 2 * (k + 1) = i + 1 + 1 + 2 * k by omega] at h
    rw [bitsFrom_succ, if_pos hc, hfirst, bitsFrom_of_const hconst, hrest]

/-- A frame with a header mark and a header space, both in tolerance, in a length the template admits. -/
structure HeadedFrame (s : State) : Prop where
  hdrmark : s.mcfg.tplHdrmark ≠ 0
  hdrspace : s.mcfg.tplHdrspace ≠ 0
  length : rawLen s = 0 ∨ rawLen s = frameLen s
  markFits : tolHolds s (frameSlot s 1) s.mcfg.tplHdrmark = true
  spaceFits : tolHolds s (frameSlot s 2) s.mcfg.tplHdrspace = true

namespace HeadedFrame

variable {s : State} (h : HeadedFrame s)
include h

theorem regionStart_eq_three : regionStart s = 3 := by
  rw [regionStart, if_neg h.hdrmark, if_neg h.hdrspace]

theorem hdrSpaceSlot_eq_two : hdrSpaceSlot s = 2 :=
  if_neg h.hdrmark

/-- After the header, the odd slots of the region are marks and the even ones spaces. -/
theorem regionFits (hlen : 4 ≤ frameLen s) (hmarks : ∀ k, 3 + 2 * k < regionEnd s → slotFits s (3 + 2 * k))
    (hspaces : ∀ k, 4 + 2 * k < regionEnd s → slotFits s (4 + 2 * k)) : regionFits s := by
  refine ⟨h.length.imp_right Eq.symm, .inr ⟨by omega, .inr h.markFits⟩, .inr ?_, fun _ => ?_, fun i hi hend => ?_⟩
  · rw [h.hdrSpaceSlot_eq_two]
    exact ⟨by omega, .inr h.spaceFits⟩
  · rw [h.regionStart_eq_three]
    omega
  · rw [h.regionStart_eq_three] at hi
    obtain ⟨k, rfl | rfl⟩ : ∃ k, i = 3 + 2 * k ∨ i = 4 + 2 * k := ⟨(i - 3) / 2, by omega⟩
    · exact hmarks k hend
    · exact hspaces k hend

/-- Slots from 3 on that fit and read as `bits` decode to them; a stop mark has the last word. -/
theorem generic_eq {bits : List Bool} (hlen : 4 ≤ frameLen s)
    (hmarks : ∀ k, 3 + 2 * k < regionEnd s → slotFits s (3 + 2 * k))
    (hspaces : ∀ k, 4 + 2 * k < regionEnd s → slotFits s (4 + 2 * k))
    (hbits : bitsFrom s 3 (regionEnd s - 3) = bits) :
    generic s =
      if s.mcfg.stop = true then stopCheck s (BitVec.ofNat 32 (bitsValue bits)) bits.length
      else .matched (BitVec.ofNat 32 (bitsValue bits)) bits.length := by
  rw [generic_of_regionFits (h.regionFits hlen hmarks hspaces), regionBits, h.regionStart_eq_three, hbits]

end HeadedFrame

theorem carriesBit_markSlot (s : State) (k : Nat) : carriesBit s (3 + 2 * k) = markLength s := by
  have hk : (3 + 2 * k) % 2 = 1 := by omega
  simp [carriesBit, hk]

theorem carriesBit_spaceSlot (s : State) (k : Nat) : carriesBit s (4 + 2 * k) = !markLength s := by
  have hk : (4 + 2 * k) % 2 = 0 := by omega
  cases hm : markLength s <;> simp [carriesBit, hk, hm]

/-- Settles O18: constant marks at the odd slots, bits at the even ones, and the stop mark last. -/
theorem spaceLengthFrameDecodes : Obligations.SpaceLengthFrameDecodes := by
  unfold Obligations.SpaceLengthFrameDecodes
  intro s bits hone hhm hhs hstop hlen hraw hm hs hdata hlast
  have hconv : markLength s = false := by simp [markLength, hone]
  have hheaded : HeadedFrame s := ⟨hhm, hhs, hraw, hm, hs⟩
  have hend : regionEnd s = 3 + 2 * bits.length := by
    rw [regionEnd, if_pos hstop]
    omega
  have hconstAt (k : Nat) : carriesBit s (3 + 2 * k) = false := by rw [carriesBit_markSlot, hconv]
  have hbitAt (k : Nat) : carriesBit s (4 + 2 * k) = true := by rw [carriesBit_spaceSlot, hconv]; rfl
  have honeValue : oneValue s = s.mcfg.tplSpaceone := by simp [oneValue, hconv]
  have hzeroValue : zeroValue s = s.mcfg.tplSpacezero := by simp [zeroValue, hconv]
  have hconstValue : constValue s = s.mcfg.tplMarkzero := by simp [constValue, hconv]
  have hmarks (k : Nat) (hk : 3 + 2 * k < regionEnd s) : slotFits s (3 + 2 * k) :=
    slotFits_const (hconstAt k) (hconstValue ▸ (hdata k (by omega)).1)
  have hspaces (k : Nat) (hk : 4 + 2 * k < regionEnd s) : slotFits s (4 + 2 * k) := by
    obtain ⟨-, hbit, hzero⟩ := hdata k (by omega)
    exact slotFits_bit (hbitAt k) (honeValue ▸ hbit) (hzeroValue ▸ hzero)
  have hbits : bitsFrom s 3 (regionEnd s - 3) = bits := by
    rw [bitsFrom_of_const (hconstAt 0)]
    exact bitsFrom_of_bit bits (hbitAt 0) (by omega) fun k hk => honeValue ▸ (hdata k hk).2.1
  have hstopMark : stopMark s = s.mcfg.tplMarkzero := by simp [stopMark, hconv]
  have hlastSlot : frameLen s - 1 = 3 + 2 * bits.length := by omega
  rw [hheaded.generic_eq (by omega) hmarks hspaces hbits, if_pos hstop, stopCheck, hstopMark, hlastSlot]
  exact if_pos hlast

/-- Settles O19: bits at the odd slots, constant spaces at the even ones; the region ends after a mark without the stop
mark and after a space with it. -/
theorem markLengthFrameDecodes : Obligations.MarkLengthFrameDecodes := by
  unfold Obligations.MarkLengthFrameDecodes
  intro s bits hone hhm hhs hraw hm hs hdata
  have hconv : markLength s = true := bne_iff_ne.mpr hone
  have hheaded : HeadedFrame s := ⟨hhm, hhs, hraw, hm, hs⟩
  have hbitAt (k : Nat) : carriesBit s (3 + 2 * k) = true := by rw [carriesBit_markSlot, hconv]
  have hconstAt (k : Nat) : carriesBit s (4 + 2 * k) = false := by rw [carriesBit_spaceSlot, hconv]; rfl
  have honeValue : oneValue s = s.mcfg.tplMarkone := by simp [oneValue, hconv]
  have hzeroValue : zeroValue s = s.mcfg.tplMarkzero := by simp [zeroValue, hconv]
  have hconstValue : constValue s = s.mcfg.tplSpaceone := by simp [constValue, hconv]
  have hmarkSlot (k : Nat) (hk : k < bits.length) : slotFits s (3 + 2 * k) := by
    obtain ⟨hbit, hzero⟩ := hdata k hk
    exact slotFits_bit (hbitAt k) (honeValue ▸ hbit) (hzeroValue ▸ hzero)
  have hspaceSlot (k : Nat) (h : tolHolds s (frameSlot s (4 + 2 * k)) s.mcfg.tplSpaceone = true) :
      slotFits s (4 + 2 * k) :=
    slotFits_const (hconstAt k) (hconstValue ▸ h)
  have hread (n : Nat) (hn : (n + 1) / 2 = bits.length) : bitsFrom s 3 n = bits :=
    bitsFrom_of_bit bits (hbitAt 0) hn fun k hk => honeValue ▸ (hdata k hk).1
  refine ⟨fun hstop hne hlen hspaces => ?_, fun hstop hlen hspaces => ?_⟩
  · have hpos : 0 < bits.length := List.length_pos_iff.mpr hne
    have hend : regionEnd s = 2 + 2 * bits.length := by simp [regionEnd, hstop, hlen]
    rw [hheaded.generic_eq (by omega) (fun k _ => hmarkSlot k (by omega))
      (fun k _ => hspaceSlot k (hspaces k (by omega))) (hread _ (by omega)), if_neg (by simp [hstop])]
  · have hend : regionEnd s = 3 + 2 * bits.length := by
      rw [regionEnd, if_pos hstop]
      omega
    have hstopMark : stopMark s = s.mcfg.tplMarkone := by simp [stopMark, hconv]
    have hlastSlot : frameLen s - 1 = 3 + 2 * bits.length := by omega
    rw [hheaded.generic_eq (by omega) (fun k _ => hmarkSlot k (by omega))
      (fun k _ => hspaceSlot k (hspaces k (by omega))) (hread _ (by omega)), if_pos hstop, stopCheck, hstopMark,
      hlastSlot]

/-! ### The commands and their completion (R190, R200, R201, R205) -/

theorem exec_frameCommand_busy {i : Instr} {s : State} (hi : i = .decode ∨ i = .matchLit) (hb : s.status.mbusy = true) :
    exec i s = .next (raiseCmdError .busyCmd s) := by
  rcases hi with rfl | rfl <;> exact if_pos hb

theorem exec_frameCommand_notReady {i : Instr} {s : State} (hi : i = .decode ∨ i = .matchLit)
    (hb : s.status.mbusy = false) (hr : s.status.ready = false) :
    exec i s = .next (raiseCmdError .notReady s) := by
  rcases hi with rfl | rfl
  · simp [exec, execDecode, hb, hr]
  · simp [exec, execMatchLit, hb, hr]

theorem execDecode_pending {s : State} (hb : s.status.mbusy = false) (hr : s.status.ready = true) :
    exec .decode s = .next (startMatcher .decode s) := by
  simp [exec, execDecode, hb, hr]

theorem execMatchLit_pending {s : State} (hb : s.status.mbusy = false) (hr : s.status.ready = true) :
    exec .matchLit s = .next (startMatcher .matchLit s) := by
  simp [exec, execMatchLit, hb, hr]

@[simp] theorem litMatch_startMatcher (op : MOp) (s : State) : litMatch (startMatcher op s) = litMatch s :=
  litMatch_congr rfl rfl fun _ _ => rfl

@[simp] theorem generic_startMatcher (op : MOp) (s : State) : generic (startMatcher op s) = generic s :=
  generic_congr rfl rfl fun _ _ => rfl

@[simp] theorem decodeVerdict_startMatcher (op : MOp) (s : State) :
    decodeVerdict (startMatcher op s) = decodeVerdict s := by
  rw [decodeVerdict, litMatch_startMatcher, generic_startMatcher]
  rfl

theorem matcherResult_decode {s : State} (h : s.mop = .decode) :
    matcherResult s = resultOf (decodeVerdict s) s.mcfg.tplId := by
  simp [matcherResult, h]

theorem matcherResult_matchLit {s : State} (h : s.mop = .matchLit) :
    matcherResult s = resultOf (litMatch s) s.mcfg.tplId := by
  simp [matcherResult, h]

/-- Settles O21: the two refusals, and the acceptance followed by the MATCHER step from the state it leaves. -/
theorem frameCommandsReport : Obligations.FrameCommandsReport := by
  unfold Obligations.FrameCommandsReport
  intro s refusedWith reports
  refine ⟨fun hb => ⟨exec_frameCommand_busy (.inl rfl) hb, exec_frameCommand_busy (.inr rfl) hb⟩,
    fun hb hr => ⟨exec_frameCommand_notReady (.inl rfl) hb hr, exec_frameCommand_notReady (.inr rfl) hb hr⟩,
    fun hb hr => ⟨?_, ?_⟩, fun hc hlen => ?_⟩
  · refine ⟨startMatcher .decode s, execDecode_pending hb hr, ?_⟩
    rw [runEvent_matcher_startMatcher hb, matcherResult_decode (by simp), decodeVerdict_startMatcher]
    rfl
  · refine ⟨startMatcher .matchLit s, execMatchLit_pending hb hr, ?_⟩
    rw [runEvent_matcher_startMatcher hb, matcherResult_matchLit (by simp), litMatch_startMatcher]
    rfl
  · rw [litMatch_wrongLength (by omega), hc]
    rfl

/-- Settles O20: the table is `resultOf`, whose counts fit their 8 bits, and the completion is `matcherResult`. -/
theorem writeResultTable : Obligations.WriteResultTable := by
  unfold Obligations.WriteResultTable
  refine ⟨fun v b id hb => ⟨rfl, ?_⟩, fun id => rfl, fun why i x o id hi => ⟨rfl, ?_⟩,
    fun s h => matcherResult_decode h, fun s h => matcherResult_matchLit h⟩
  · simpa [resultOf] using hb
  · simpa [resultOf] using hi

/-! ### The writers of the result registers (R205) -/

theorem writeEffect_res {s t : State} (h : WriteEffect s t) : t.res = s.res := by
  cases h <;> simp

theorem hostAccess_res {a : Access} {s t : State} (h : hostAccess a s = .next t) : t.res = s.res := by
  rcases hostAccess_cases h with rfl | ⟨-, r, rfl⟩ | ⟨-, hwrite⟩
  · simp
  · simp
  · simpa using writeEffect_res hwrite

theorem deliver_res (c : Channel) (s : State) : (deliver c s).res = s.res := by
  cases c <;> simp [deliver]

theorem runEvent_res {e : Event} {s t : State} (h : runEvent e s = .next t) :
    t.res = s.res ∨ (e = .matcher ∧ s.status.mbusy = true) ∨ e = .reset := by
  rcases runEvent_cases h with ⟨m, -, rfl⟩ | ⟨a, -, ha⟩ | ⟨he, hb, -⟩ | ⟨c, -, -, rfl⟩ | ⟨he, -⟩ | ⟨rfl, -⟩
  · exact .inl (by simp)
  · exact .inl (hostAccess_res ha)
  · exact .inr (.inl ⟨he, hb⟩)
  · exact .inl (deliver_res c s)
  · exact .inr (.inr he)
  · exact .inl rfl

/-- Settles O22: every other event keeps RES_* (`runEvent_res`), and taking the event off the agenda does too. -/
theorem resultsChangeOnlyAtCompletion : Obligations.ResultsChangeOnlyAtCompletion := by
  unfold Obligations.ResultsChangeOnlyAtCompletion
  intro s t hstep hne
  rcases runEvent_res hstep with hkept | ⟨he, hb⟩ | he
  · exact absurd (by simpa using hkept) hne
  · exact .inl ⟨he, by simpa using hb⟩
  · exact .inr he

end Sys2Proof.Proofs
end

section
/-! PROOFS. The obligations of 44_host_bus.md: command acceptance, the writes of the register port, and the words its
reads answer. -/

namespace Sys2Proof.Proofs
open Sys2Proof.Machine Sys2Proof.Safety

/-! ### Command words reach their command (R220, R227, R231) -/

theorem issueCommand_of_decodeWord {w : Word} {i : Instr} (h : decodeWord w = .ok i) (s : State) :
    issueCommand w s = exec i s := by
  unfold issueCommand
  rw [h]

theorem encode_toNat_lt (i : Instr) : (encode i).toNat < 5 := by
  cases i <;> decide

/-- An illegal word is no command's encoding, and those are the words below 5. -/
theorem decodeWord_of_illegal {w : Word} (h : w.toNat / 16 ≠ 0 ∨ 5 ≤ w.toNat % 16) : ∃ e, decodeWord w = .error e := by
  cases hd : decodeWord w with
  | error e => exact ⟨e, rfl⟩
  | ok i =>
    obtain rfl := encode_eq_of_decodeWord hd
    have := encode_toNat_lt i
    omega

theorem decodeWord_of_decodeTableWord {nbits w : Nat} {i : Instr} (h : decodeTableWord nbits w = some i) :
    decodeWord (BitVec.ofNat 32 (w % 2 ^ nbits)) = .ok i := by
  unfold decodeTableWord at h
  split at h
  · split at h
    · next hd =>
      cases h
      exact hd
    · cases h
  · cases h

/-- A step whose event is a command access issues the word, in the state the choice leaves. -/
theorem step_of_commandAccess {s : State} {w : Word} (h : nextEvent s = .host (commandAccess w)) :
    step s = issueCommand w (answer 0 (takeEvent s)) := by
  rw [step, h]
  exact hostAccess_commandAccess w (takeEvent s)

theorem step_withFetchWord (s : State) (nbits w : Nat) :
    step (s.withFetchWord nbits w) = issueCommand (BitVec.ofNat 32 (w % 2 ^ nbits)) (answer 0 s) :=
  step_of_commandAccess rfl

/-- Settles O4: the step is the agent's step by definition, a command access issues its word
(`hostAccess_commandAccess`), and an issued word runs the command it decodes to. -/
theorem stepRunsDecodedCommand : Obligations.StepRunsDecodedCommand := by
  unfold Obligations.StepRunsDecodedCommand
  refine ⟨fun s => ⟨rfl, takeEvent_eq s⟩, fun s w => hostAccess_commandAccess w s, fun s w i he hd => ?_,
    fun s nbits w i hd => ?_⟩
  · rw [step_of_commandAccess he, issueCommand_of_decodeWord hd]
  · rw [step_withFetchWord, issueCommand_of_decodeWord (decodeWord_of_decodeTableWord hd)]

/-- Settles O5: an illegal word does not decode (`decodeWord_of_illegal`). -/
theorem illegalWordRaisesBadCmd : Obligations.IllegalWordRaisesBadCmd := by
  unfold Obligations.IllegalWordRaisesBadCmd
  intro s w h
  obtain ⟨e, he⟩ := decodeWord_of_illegal h
  exact issueCommand_of_illegal he s

/-- Settles O6: NOP answers the state it is given, and the word 0 is its encoding. -/
theorem nopChangesNothing : Obligations.NopChangesNothing := by
  unfold Obligations.NopChangesNothing
  exact fun s => ⟨rfl, issueCommand_of_decodeWord (decodeWord_encode .nop) s⟩

/-! ### Acceptance and the commands' frame (R227) -/

theorem exec_busy {i : Instr} {s : State} (hi : i ≠ .nop) (hb : s.status.mbusy = true) :
    exec i s = .next (raiseCmdError .busyCmd s) := by
  cases i
  case nop => exact absurd rfl hi
  case resume => exact execResume_busy hb
  case matchDur => exact execMatchDur_busy hb
  case decode => exact exec_frameCommand_busy (.inl rfl) hb
  case matchLit => exact exec_frameCommand_busy (.inr rfl) hb

/-- Settles O8: one equation per row of the acceptance table. -/
theorem commandAcceptance : Obligations.CommandAcceptance := by
  unfold Obligations.CommandAcceptance
  intro s refusedWith startedAs
  refine ⟨fun w e he => issueCommand_of_illegal he s, fun w i hd => issueCommand_of_decodeWord hd s, rfl,
    fun hb i hi => exec_busy hi hb, fun hb => ⟨execResume_pending hb, execResume_noFrame hb, execMatchDur_free hb,
      fun hr => ⟨?_, ?_⟩, fun hr => ⟨?_, ?_⟩⟩⟩
  · exact exec_frameCommand_notReady (.inl rfl) hb hr
  · exact exec_frameCommand_notReady (.inr rfl) hb hr
  · exact execDecode_pending hb hr
  · exact execMatchLit_pending hb hr

section
variable {i : Instr} {s t : State} (h : exec i s = .next t)
include h

/-- What no command changes. -/
theorem exec_fields :
    t.par = s.par ∧ t.en = s.en ∧ t.irqen = s.irqen ∧ t.pcfg = s.pcfg ∧ t.mcfg = s.mcfg ∧ t.res = s.res ∧
    t.cbank = s.cbank ∧ t.p = s.p ∧ t.ch.h = s.ch.h ∧ t.mem = s.mem ∧ t.resp = s.resp ∧ t.agenda = s.agenda ∧
    t.draws = s.draws ∧ t.status.pact = s.status.pact ∧ t.status.frmev = s.status.frmev ∧
    t.status.mdone = s.status.mdone ∧ t.status.lostcnt = s.status.lostcnt := by
  rcases exec_cases h with ⟨c, rfl⟩ | rfl | ⟨-, -, rfl, -⟩ | ⟨op, -, -, -, rfl⟩ <;> simp

/-- Only RESUME releases the pending frame. -/
theorem exec_keeps_frame (hi : i ≠ .resume) :
    t.status.ready = s.status.ready ∧ t.status.fovf = s.status.fovf ∧ t.flen = s.flen ∧ t.ch.r = s.ch.r := by
  rcases exec_cases h with ⟨c, rfl⟩ | rfl | ⟨-, -, -, hresume⟩ | ⟨op, -, -, -, rfl⟩
  case inr.inr.inl => exact absurd hresume hi
  all_goals simp

/-- NOP and RESUME start no matcher operation. -/
theorem exec_keeps_mop (hi : i = .nop ∨ i = .resume) : t.mop = s.mop ∧ t.status.mbusy = s.status.mbusy := by
  rcases hi with rfl | rfl
  · cases h
    exact ⟨rfl, rfl⟩
  · rcases execResume_cases h with ⟨-, rfl⟩ | ⟨-, -, rfl⟩ | ⟨-, -, rfl⟩ <;> simp

/-- An accepted command raises no CmdError. -/
theorem exec_accepted_keeps_error
    (hi : i = .nop ∨ (s.status.mbusy = false ∧ (i = .resume ∨ i = .matchDur ∨ s.status.ready = true))) :
    t.errinfo = s.errinfo ∧ t.status.err = s.status.err := by
  cases i
  case nop =>
    cases h
    exact ⟨rfl, rfl⟩
  all_goals obtain ⟨hb, hi⟩ := hi.resolve_left (by simp)
  case resume =>
    rcases execResume_cases h with ⟨hbusy, -⟩ | ⟨-, -, rfl⟩ | ⟨-, -, rfl⟩
    · exact absurd hbusy (by simp [hb])
    · simp
    · simp
  case matchDur =>
    cases (execMatchDur_free hb).symm.trans h
    simp
  case decode =>
    cases (execDecode_pending hb (by simpa using hi)).symm.trans h
    simp
  case matchLit =>
    cases (execMatchLit_pending hb (by simpa using hi)).symm.trans h
    simp

end

/-- Settles O10: the frame of every command (`exec_fields`), and what the accepted and the other commands keep beside it. -/
theorem commandFrame : Obligations.CommandFrame := by
  unfold Obligations.CommandFrame
  intro i s t h
  obtain ⟨hpar, hen, hirqen, hpcfg, hmcfg, hres, hcbank, hp, hh, hmem, hresp, hagenda, hdraws, hpact, hfrmev, hmdone,
    hlostcnt⟩ := exec_fields h
  exact ⟨hpar, hen, hirqen, hpcfg, hmcfg, hres, hcbank, hp, hh, hresp, hagenda, hdraws, hpact, hfrmev, hmdone, hlostcnt,
    exec_keeps_frame h, exec_keeps_mop h, exec_accepted_keeps_error h, sample_congr hmem⟩

/-! ### The operands of a running matcher command (R206) -/

/-- While MBUSY = 1 no write reaches c.mop or the matcher configuration (R227, R229). -/
theorem writeEffect_busy {s t : State} (h : WriteEffect s t) (hb : s.status.mbusy = true) :
    t.mop = s.mop ∧ t.mcfg = s.mcfg := by
  cases h
  case mcfg hidle _ => exact absurd hb (by simp [hidle])
  case start hidle _ _ => exact absurd hb (by simp [hidle])
  all_goals simp

theorem hostAccess_busy {a : Access} {s t : State} (h : hostAccess a s = .next t) (hb : s.status.mbusy = true) :
    t.mop = s.mop ∧ t.mcfg = s.mcfg := by
  rcases hostAccess_cases h with rfl | ⟨-, r, rfl⟩ | ⟨-, hwrite⟩
  · simp
  · simp
  · simpa using writeEffect_busy hwrite (by simpa)

theorem runEvent_busy {e : Event} {s t : State} (h : runEvent e s = .next t) (hb : s.status.mbusy = true)
    (hm : e ≠ .matcher) (hr : e ≠ .reset) : t.mop = s.mop ∧ t.mcfg = s.mcfg := by
  rcases runEvent_cases h with ⟨m, -, rfl⟩ | ⟨a, -, ha⟩ | ⟨he, -⟩ | ⟨c, -, -, rfl⟩ | ⟨he, -⟩ | ⟨rfl, -⟩
  · simp
  · exact hostAccess_busy ha hb
  · exact absurd he hm
  · cases c <;> simp [deliver]
  · exact absurd he hr
  · simp

/-- While a frame is pending and MBUSY = 1, no step but RESET changes FLEN or a slot the matcher reads: RESUME is refused
(R227), and the frame lies in the held bank (R55, R56). -/
theorem step_busy_frame {s t : State} (h : Inv s) (hready : s.status.ready = true) (hb : s.status.mbusy = true)
    (ht : step s = .next t) (hr : nextEvent s ≠ .reset) :
    t.flen = s.flen ∧ ∀ i ≤ frameLen s - 1, frameSlot t i = frameSlot s i := by
  rcases pendingFrameStable s t h hready ht with ⟨-, hflen, -, hcbank, -⟩ | ⟨-, -, hidle⟩ | he
  · refine ⟨hflen, fun i hi => ?_⟩
    have hlt : frameLen s < 256 := s.flen.isLt
    have hheld : s.cbank = s.p.hbank := (h.pending.1 hready).1
    rw [frameSlot, frameSlot, hcbank, sample, sample, hheld,
      heldBankUntouched s t h (.inr hready) ht i (by omega)]
  · exact absurd hb (by simp [hidle])
  · exact absurd he hr

theorem matcherResult_matchDur {s : State} (h : s.mop = .matchDur) : matcherResult s = Machine.matchDurResult s := by
  simp [matcherResult, h]

/-- MATCH_DUR reads the matcher configuration alone, so a hand-off delivered meanwhile does not matter. -/
theorem matchDurResult_congr {s t : State} (hm : t.mcfg = s.mcfg) :
    Machine.matchDurResult t = Machine.matchDurResult s := by
  simp only [Machine.matchDurResult, tolHolds_congr hm, hm]

/-- Settles O23: MBUSY falls only at the completion (`mbusy_falls`), the operands in registers are locked
(`runEvent_busy`), and the frame that DECODE and MATCH_LIT read is pending (`step_busy_frame`). -/
theorem operandsStableWhileBusy : Obligations.OperandsStableWhileBusy := by
  unfold Obligations.OperandsStableWhileBusy
  intro s t h hb ht hm hr
  have hbusy : t.status.mbusy = true := by
    by_contra hidle
    exact hm ((step_statusEffect ht hr).mbusy_falls hb (by simpa using hidle))
  obtain ⟨hmop, hmcfg⟩ : t.mop = s.mop ∧ t.mcfg = s.mcfg := by simpa using runEvent_busy ht (by simpa) hm hr
  have hres : t.res = s.res := by
    by_contra hne
    exact (resultsChangeOnlyAtCompletion s t ht hne).elim (fun hc => hm hc.1) hr
  have hframeCommand (hready : s.status.ready = true) : matcherResult t = matcherResult s :=
    have ⟨hflen, hslots⟩ := step_busy_frame h hready hb ht hr
    matcherResult_congr hmcfg hmop hres hflen fun _ => hslots
  obtain ⟨hnone, hdecode, hmatchLit⟩ := h.matcher
  refine ⟨hbusy, hmop, hmcfg, ?_⟩
  cases hop : s.mop
  case none => exact absurd hb (by simp [hnone.mp hop])
  case matchDur =>
    rw [matcherResult_matchDur hop, matcherResult_matchDur (hmop.trans hop), matchDurResult_congr hmcfg]
  case decode => exact hframeCommand (hdecode hop)
  case matchLit => exact hframeCommand (hmatchLit hop)

end Sys2Proof.Proofs
end

section
/-! PROOFS. The obligations of 44_host_bus.md: what each write of the register port does, and what each read answers. -/

namespace Sys2Proof.Proofs
open Sys2Proof.Machine Sys2Proof.Safety

/-! ### A write to a register, by its rule (R223) -/

/-- The registers with one offset each lie below the literal table, whatever its length. -/
theorem regAt_regOffset {r : Reg} (h : r ∈ singleRegs) (litMax : Nat) : regAt litMax (regOffset r) = some r := by
  have hlow : regOffset r < 0x0C0 := by revert r; decide
  have hfind : (singleRegs.find? fun r' => regOffset r' == regOffset r) = some r := by revert r; decide
  rw [regAt, if_neg (by omega), if_neg (by omega), hfind]

theorem regOffset_aligned (r : Reg) : regOffset r % 4 = 0 := by
  cases r <;> simp [regOffset]

theorem hostAccess_write_single {s : State} {a : Access} {r : Reg} (hr : r ∈ singleRegs)
    (ha : a.addr.toNat = regOffset r) (hw : a.write = true) : hostAccess a s = writeReg r a.wdata (answer 0 s) := by
  simp [hostAccess, ha, regOffset_aligned, regAt_regOffset hr, hw]

theorem writeReg_readOnly {r : Reg} (h : writeRule r = .readOnly) (w : Word) (s : State) :
    writeReg r w s = .next s := by
  simp [writeReg, h]

theorem writeReg_pcfg {r : Reg} (h : writeRule r = .pcfg) (w : Word) (s : State) :
    writeReg r w s = .next (writePcfg r w s) := by
  simp [writeReg, h]

theorem writeReg_mcfg {r : Reg} (h : writeRule r = .mcfg) (w : Word) (s : State) :
    writeReg r w s = .next (writeMcfg r w s) := by
  simp [writeReg, h]

theorem pcfgOpen_iff (s : State) :
    pcfgOpen s = true ↔ s.en = false ∧ s.status.pact = false ∧ s.status.ready = false := by
  simp [pcfgOpen, and_assoc]

/-! ### Refused writes (R226, R228, R229) -/

theorem writeCtrl_busy {w : Word} {s : State} (hne : w.getLsbD 0 ≠ s.en) (hflight : s.en ≠ s.status.pact) :
    writeCtrl w s = raiseCmdError .enBusy s :=
  if_pos ⟨hne, hflight⟩

theorem writeCtrl_accepted {w : Word} {s : State} (h : w.getLsbD 0 = s.en ∨ s.en = s.status.pact) :
    writeCtrl w s = { s with en := w.getLsbD 0 } :=
  if_neg fun hrefuse => h.elim hrefuse.1 hrefuse.2

theorem writePcfg_locked {s : State} (h : pcfgOpen s = false) (r : Reg) (w : Word) :
    writePcfg r w s = raiseCmdError .cfgLocked s := by
  simp [writePcfg, h]

theorem writeMcfg_busy {s : State} (hb : s.status.mbusy = true) (r : Reg) (w : Word) :
    writeMcfg r w s = raiseCmdError .mcfgBusy s :=
  if_pos hb

theorem writeMcfg_litRange {s : State} {w : Word} (hb : s.status.mbusy = false) (h : s.par.litMax < w.toNat % 32) :
    writeMcfg .litLen w s = raiseCmdError .litRange s := by
  simp [writeMcfg, hb, h]

/-- Settles O54: each write is refused by its lock's lemma, after the port's answer. -/
theorem lockedWritesRefused : Obligations.LockedWritesRefused := by
  unfold Obligations.LockedWritesRefused
  intro s a r hw ha refusedWith
  have hrefuse (c : Cause) (h : writeReg r a.wdata (answer 0 s) = .next (raiseCmdError c (answer 0 s))) :
      refusedWith c := (hostAccess_write ha hw).trans h
  refine ⟨fun hr hclosed => hrefuse _ ?_, fun hr hb => hrefuse _ ?_, fun hr hb hlarge => hrefuse _ ?_⟩
  · have hrule : writeRule r = .pcfg := by rcases hr with rfl | rfl | rfl | rfl <;> rfl
    have hlock : pcfgOpen (answer 0 s) = false := by
      rw [← Bool.not_eq_true]
      exact mt (pcfgOpen_iff s).mp hclosed
    rw [writeReg_pcfg hrule, writePcfg_locked hlock]
  · rw [writeReg_mcfg hr, writeMcfg_busy (by simpa)]
  · rw [hr, writeReg_mcfg rfl, writeMcfg_litRange (by simpa) (by simpa)]

/-- Settles O55: CTRL's two cases (`writeCtrl_busy`, `writeCtrl_accepted`), after the port's answer. -/
theorem controlWriteGuarded : Obligations.ControlWriteGuarded := by
  unfold Obligations.ControlWriteGuarded
  intro s a hw ha
  have hwrite : runEvent (.host a) s = .next (writeCtrl a.wdata (answer 0 s)) :=
    hostAccess_write_single (r := .ctrl) (by decide) (by rw [ha]; rfl) hw
  refine ⟨fun hne hflight => ?_, fun haccept => ?_⟩
  · rw [hwrite, writeCtrl_busy (by simpa) (by simpa)]
    rfl
  · rw [hwrite, writeCtrl_accepted (by simpa)]
    rfl

theorem clearEvents_eq (w : Word) (u : Status) :
    clearEvents w u =
      { u with
        frmev := if w.getLsbD 4 = true then false else u.frmev
        mdone := if w.getLsbD 5 = true then false else u.mdone
        err := if w.getLsbD 6 = true then false else u.err } := by
  have hclear (b old : Bool) : (old && !b) = if b = true then false else old := by cases b <;> simp
  simp only [clearEvents, hclear]

/-- Settles O56: the write-1-to-clear of each event bit (`clearEvents_eq`). -/
theorem statusWriteClears : Obligations.StatusWriteClears := by
  unfold Obligations.StatusWriteClears
  intro s a hw ha
  have hwrite : runEvent (.host a) s = .next (writeStatus a.wdata (answer 0 s)) :=
    hostAccess_write_single (r := .status) (by decide) (by rw [ha]; rfl) hw
  rw [hwrite, writeStatus, clearEvents_eq]
  rfl

/-- Settles O57: each of these registers exists and has the read-only rule, so only the port's answer is left. -/
theorem readOnlyWritesIgnored : Obligations.ReadOnlyWritesIgnored := by
  unfold Obligations.ReadOnlyWritesIgnored
  intro s a r hw ha hr hlit
  have hreg : writeRule r = .readOnly ∧ regExists s.par.litMax r = true := by
    rcases hr with rfl | rfl | rfl | rfl | rfl | rfl | rfl | rfl | ⟨i, hi, rfl⟩
    case inr.inr.inr.inr.inr.inr.inr.inr => exact ⟨rfl, decide_eq_true hi⟩
    all_goals exact ⟨rfl, rfl⟩
  obtain ⟨hrule, hexists⟩ := hreg
  exact (hostAccess_write ⟨ha, hexists, hlit⟩ hw).trans (writeReg_readOnly hrule a.wdata (answer 0 s))

/-! ### The words the registers read as (R221) -/

/-- The upper part of a word counts in units of the lower part's width. -/
theorem toNat_append_eq_add {m n : Nat} (x : BitVec m) (y : BitVec n) :
    (x ++ y).toNat = x.toNat * 2 ^ n + y.toNat := by
  rw [BitVec.toNat_append, ← Nat.shiftLeft_add_eq_or_of_lt y.isLt, Nat.shiftLeft_eq]

theorem statusWord_toNat (u : Status) :
    (statusWord u).toNat =
      u.lostcnt.toNat * 256 + u.err.toNat * 64 + u.mdone.toNat * 32 + u.frmev.toNat * 16 + u.mbusy.toNat * 8 +
        u.pact.toNat * 4 + u.fovf.toNat * 2 + u.ready.toNat := by
  simp only [statusWord, toNat_append_eq_add, BitVec.toNat_ofBool, BitVec.toNat_ofNat]
  omega

theorem irqenWord_toNat (e : IrqEn) :
    (irqenWord e).toNat = e.err.toNat * 64 + e.mdone.toNat * 32 + e.frmev.toNat * 16 := by
  simp only [irqenWord, toNat_append_eq_add, BitVec.toNat_ofBool, BitVec.toNat_ofNat]
  omega

theorem tplFlagsWord_toNat (m : MatcherCfg) : (tplFlagsWord m).toNat = m.hdrskip.toNat * 2 + m.stop.toNat := by
  simp only [tplFlagsWord, toNat_append_eq_add, BitVec.toNat_ofBool, BitVec.toNat_ofNat]
  omega

theorem resKindWord_toNat (r : Result) :
    (resKindWord r).toNat = (reasonCode r.reason).toNat * 16 + (kindCode r.kind).toNat := by
  simp only [resKindWord, toNat_append_eq_add, BitVec.toNat_ofNat]
  omega

theorem resInfoWord_toNat (r : Result) :
    (resInfoWord r).toNat = r.id.toNat * 65536 + r.bits.toNat * 256 + r.index.toNat := by
  simp only [resInfoWord, toNat_append_eq_add, BitVec.toNat_ofNat]
  omega

/-- A stored field is zero-extended. -/
theorem field_toNat {n : Nat} (x : BitVec n) (hn : n ≤ 32 := by decide) : (x.setWidth 32).toNat = x.toNat :=
  BitVec.toNat_setWidth_of_le hn

/-- The FRAME window (R222) as a number. -/
theorem frameRead_toNat (s : State) (i : Nat) :
    (frameRead s i).toNat =
      if s.status.ready = true ∧ i < s.flen.toNat then (sample s s.cbank i).toNat else 0 := by
  unfold frameRead frameLen
  split
  · exact field_toNat _
  · rfl

/-- Settles O59: the packed words by their own lemmas, the code numbers by cases of their types, and every other register
is one zero-extended field. -/
theorem flagWordsLayout : Obligations.FlagWordsLayout := by
  unfold Obligations.FlagWordsLayout
  intro s reads
  refine ⟨⟨rfl, ?_, rfl, field_toNat _, statusWord_toNat _, irqenWord_toNat _, ?_⟩, ⟨?_, field_toNat _, field_toNat _,
    field_toNat _⟩, ⟨field_toNat _, field_toNat _, field_toNat _, field_toNat _, field_toNat _, field_toNat _,
    field_toNat _, field_toNat _, field_toNat _, field_toNat _, field_toNat _, field_toNat _, tplFlagsWord_toNat _,
    field_toNat _, fun k => field_toNat _⟩, ⟨?_, rfl, resInfoWord_toNat _, field_toNat _, field_toNat _⟩,
    frameRead_toNat s⟩
  · exact (field_toNat _).trans (BitVec.toNat_ofBool _)
  · refine (field_toNat _).trans ?_
    cases s.errinfo <;> rfl
  · refine (field_toNat _).trans ?_
    cases s.pcfg.bufmode <;> rfl
  · refine (resKindWord_toNat _).trans ?_
    cases s.res.reason <;> cases s.res.kind <;> rfl

end Sys2Proof.Proofs
end

section
/-! PROOFS. The obligations of 60_exceptions.md. -/

namespace Sys2Proof.Proofs
open Sys2Proof.Machine

/-! ### The writers of ERRINFO (R261) -/

/-- Only a CmdError that finds ERR = 0 latches a cause (R261). -/
theorem err_clear_of_cause_latched {c : Cause} {s : State} (hne : (raiseCmdError c s).errinfo ≠ s.errinfo) :
    s.status.err = false := by
  by_contra herr
  exact hne (by simp [herr])

/-- A write that changes ERRINFO is a refused one. -/
theorem writeEffect_errinfo {s t : State} (h : WriteEffect s t) (hne : t.errinfo ≠ s.errinfo) :
    ∃ c, t = raiseCmdError c s := by
  cases h
  case refused c => exact ⟨c, rfl⟩
  all_goals simp at hne

theorem hostAccess_errinfo {a : Access} {s t : State} (h : hostAccess a s = .next t) (hne : t.errinfo ≠ s.errinfo) :
    a.write = true ∧ ∃ c, t = raiseCmdError c (answer 0 s) := by
  rcases hostAccess_cases h with rfl | ⟨-, r, rfl⟩ | ⟨hw, hwrite⟩
  · simp at hne
  · simp at hne
  · exact ⟨hw, writeEffect_errinfo hwrite (by simpa using hne)⟩

theorem deliver_errinfo (c : Channel) (s : State) : (deliver c s).errinfo = s.errinfo := by
  cases c <;> simp [deliver]

/-- The HOST and RESET are the only writers of ERRINFO. -/
theorem runEvent_errinfo {e : Event} {s t : State} (h : runEvent e s = .next t) (hne : t.errinfo ≠ s.errinfo) :
    e = .reset ∨ ∃ a, e = .host a ∧ a.write = true ∧ ∃ c, t = raiseCmdError c (answer 0 s) := by
  rcases runEvent_cases h with ⟨m, -, rfl⟩ | ⟨a, he, ha⟩ | ⟨-, -, rfl⟩ | ⟨c, -, -, rfl⟩ | ⟨he, -⟩ | ⟨rfl, -⟩
  · simp at hne
  · exact .inr ⟨a, he, hostAccess_errinfo ha hne⟩
  · simp at hne
  · exact absurd (deliver_errinfo c s) hne
  · exact .inl he
  · exact absurd rfl hne

/-- Settles O9: the changed ERRINFO is the cause of a refused write (`runEvent_errinfo`), which is latched only while
ERR = 0 (`err_clear_of_cause_latched`). -/
theorem errinfoHoldsFirstCause : Obligations.ErrinfoHoldsFirstCause := by
  unfold Obligations.ErrinfoHoldsFirstCause
  intro s t hstep hne
  rcases runEvent_errinfo hstep (by simpa using hne) with hreset | ⟨a, he, hw, c, rfl⟩
  · exact .inl hreset
  · have herr : s.status.err = false := by simpa using err_clear_of_cause_latched (by simpa using hne)
    refine .inr ⟨⟨a, he, hw⟩, herr, ?_⟩
    simp [raiseCmdError, answer]

/-! ### The interrupt output (R270) and the IRQEN write (R232) -/

theorem statusWord_eventBits (u : Status) :
    (statusWord u).getLsbD 4 = u.frmev ∧ (statusWord u).getLsbD 5 = u.mdone ∧ (statusWord u).getLsbD 6 = u.err := by
  simp only [statusWord, BitVec.getLsbD_append, BitVec.getLsbD_ofBool]
  simp

theorem irqenOf_irqenWord (e : IrqEn) : irqenOf (irqenWord e) = e := by
  simp only [irqenOf, irqenWord, BitVec.getLsbD_append, BitVec.getLsbD_ofBool]
  simp

theorem irqenWord_ne_zero (e : IrqEn) : (irqenWord e != 0) = (e.frmev || e.mdone || e.err) := by
  obtain ⟨frmev, mdone, err⟩ := e
  revert frmev mdone err
  decide

/-- irq of a state whose enables are those of the word `w`, as a test on words. -/
theorem irq_eq_masked {s : State} {w : Word} (h : s.irqen = irqenOf w) :
    irq s = ((statusWord s.status &&& w &&& 0x70) != 0) := by
  obtain ⟨hfrmev, hmdone, herr⟩ := statusWord_eventBits s.status
  rw [← irqenWord_irqenOf, irqenWord_ne_zero, irq, h]
  simp only [irqenOf, BitVec.getLsbD_and, hfrmev, hmdone, herr]

theorem irq_iff (s : State) :
    irq s = true ↔
      (s.status.frmev = true ∧ s.irqen.frmev = true) ∨ (s.status.mdone = true ∧ s.irqen.mdone = true) ∨
        (s.status.err = true ∧ s.irqen.err = true) := by
  simp [irq, or_assoc]

/-- Settles O58: irq as a test on words (`irq_eq_masked`), read once with the enables as they stand
(`irqenOf_irqenWord`) and once with those the write stores (`irqenWord_irqenOf`). -/
theorem interruptOutput : Obligations.InterruptOutput := by
  unfold Obligations.InterruptOutput
  refine ⟨fun s => ⟨irq_iff s, irq_eq_masked (irqenOf_irqenWord _).symm⟩, fun s a hw ha => ?_⟩
  have hwrite : runEvent (.host a) s = .next (writeIrqen a.wdata (answer 0 s)) :=
    hostAccess_write_single (r := .irqen) (by decide) (by rw [ha]; rfl) hw
  exact ⟨_, hwrite, rfl, irqenWord_irqenOf a.wdata, irq_eq_masked rfl⟩

end Sys2Proof.Proofs
end

section
/-! PROOFS. The obligations of 70_reset_and_hazards.md: the state after reset, RESET, and the fair completion of a matcher
command. -/

namespace Sys2Proof.Proofs
open Sys2Proof.Machine Sys2Proof.Safety

/-! ### Fair completion (R312, R205, R290) -/

/-- The two choices that end a matcher command: its completion step and RESET (R205, R290). -/
def EndsCommand (choice : Option Event) : Prop := choice = some .matcher ∨ choice = some .reset

section
variable {sched : Nat → Option Event} {run : Nat → State}

theorem isRun_some (hrun : IsRun sched run) {k : Nat} {e : Event} (he : sched k = some e) :
    runEvent e (run k) = .next (run (k + 1)) := by
  simpa only [he] using hrun k

theorem isRun_none (hrun : IsRun sched run) {k : Nat} (he : sched k = none) : run (k + 1) = run k := by
  simpa only [he] using hrun k

/-- Nothing but the completion step and RESET clears MBUSY (R23). -/
theorem mbusy_succ (hrun : IsRun sched run) {k : Nat} (hb : (run k).status.mbusy = true)
    (hgoes : ¬ EndsCommand (sched k)) : (run (k + 1)).status.mbusy = true := by
  cases he : sched k with
  | none => rwa [isRun_none hrun he]
  | some e =>
    rw [he] at hgoes
    have hreset : e ≠ .reset := fun h => hgoes (.inr (congrArg some h))
    by_contra hidle
    have hmatcher : e = .matcher :=
      (runEvent_statusEffect (isRun_some hrun he) hreset).mbusy_falls hb (by simpa using hidle)
    exact hgoes (.inl (congrArg some hmatcher))

theorem mbusy_until_end (hrun : IsRun sched run) {n m : Nat} (hnm : n ≤ m) (hb : (run n).status.mbusy = true)
    (hgoes : ∀ k, n ≤ k → k < m → ¬ EndsCommand (sched k)) : (run m).status.mbusy = true := by
  induction m, hnm using Nat.le_induction with
  | base => exact hb
  | succ m hnm ih => exact mbusy_succ hrun (ih fun k hk hkm => hgoes k hk (by omega)) (hgoes m hnm (by omega))

/-- A command that nothing ends would keep the MATCHER enabled for ever, which its fairness forbids (R312 (b)). -/
theorem command_ends (hrun : IsRun sched run) (hfair : WeaklyFair .matcher sched run) {n : Nat}
    (hb : (run n).status.mbusy = true) : ∃ m, n ≤ m ∧ EndsCommand (sched m) := by
  by_contra hnever
  have hgoes : ∀ k, n ≤ k → ¬ EndsCommand (sched k) := fun k hk hend => hnever ⟨k, hk, hend⟩
  have henabled : ∀ m, n ≤ m → eventEnabled .matcher (run m) = true :=
    fun m hm => mbusy_until_end hrun hm hb fun k hk _ => hgoes k hk
  obtain ⟨m, hm, htaken⟩ := hfair n henabled
  exact hgoes m hm (.inl htaken)

end

theorem runEvent_matcher {s : State} (hb : s.status.mbusy = true) : runEvent .matcher s = .next (matcherStep s) := by
  simp [runEvent, hb]

/-- Settles O50: the instant is the first at which something ends the command. There is one by the MATCHER's fairness
(`command_ends`), and until then MBUSY stays 1 (`mbusy_until_end`). -/
theorem fairRunsCompleteMatching : Obligations.FairRunsCompleteMatching := by
  unfold Obligations.FairRunsCompleteMatching
  intro ended sched run hfairRun n hb
  obtain ⟨hrun, -, hfair, -⟩ := hfairRun
  classical
  have hends := command_ends hrun hfair hb
  obtain ⟨hnm, hend⟩ := Nat.find_spec hends
  have hbusy : ∀ k, n ≤ k → k ≤ Nat.find hends → (run k).status.mbusy = true := fun k hk hkm =>
    mbusy_until_end hrun hk hb fun j hj hjk hendj => Nat.find_min hends (by omega) ⟨hj, hendj⟩
  refine ⟨Nat.find hends, hnm, hbusy, hend.imp_left fun hmatcher => ⟨hmatcher, ?_⟩⟩
  have hstep := isRun_some hrun hmatcher
  rw [runEvent_matcher (hbusy _ hnm le_rfl)] at hstep
  exact (Host.Outcome.next.inj hstep).symm

/-! ### The state after reset (R291) -/

/-- Nothing is enabled, in flight, pending or running, so that only the parameters and the literal table depend on `c`. -/
theorem inv_resetOf {c : Config} (hc : c.wf = true) : Inv (State.resetOf c) where
  par := hc
  handshake := .inl ⟨rfl, rfl, rfl, rfl⟩
  producer := producerOk_of_empty rfl rfl rfl
  shape := ⟨nofun, nofun, nofun, nofun, nofun, nofun⟩
  banks := nofun
  pending := ⟨nofun, fun _ => ⟨rfl, rfl⟩⟩
  matcher := ⟨iff_of_true rfl rfl, nofun, nofun⟩
  enable := fun _ => rfl
  literal := ⟨List.length_replicate, Nat.zero_le _⟩
  mem := memWf_resetOf c
  written := ⟨fun hne => absurd rfl hne, by rintro (hh | hr) <;> contradiction⟩
  result := by simp [ResultOk, State.resetOf]

/-- Settles O42: the defaults of R7 are in range too. -/
theorem resetMeetsInv : Obligations.ResetMeetsInv := by
  unfold Obligations.ResetMeetsInv
  exact ⟨fun _ => inv_resetOf, inv_resetOf (by decide)⟩

/-! ### RESET (R290) -/

theorem litEntry_resetStep (s : State) (k : Nat) : litEntry (resetStep s) k = 0 := by
  simp [litEntry, resetStep, State.resetOf]

theorem irqenWord_resetStep (s : State) : irqenWord (resetStep s).irqen = 0 := by
  simp [irqenWord, resetStep, State.resetOf]

theorem tplFlagsWord_resetStep (s : State) : tplFlagsWord (resetStep s).mcfg = 0 := by
  simp [tplFlagsWord, resetStep, State.resetOf]

theorem readReg_resetStep_mcfg {r : Reg} (h : writeRule r = .mcfg) (s : State) :
    readReg r (resetStep s) = if r = .tolpct then 25 else 0 := by
  cases r
  case lit k => simp [readReg, litEntry_resetStep]
  case tplFlags => simp [readReg, tplFlagsWord_resetStep]
  all_goals simp [writeRule] at h <;> rfl

/-- Settles O60: the state is `resetStep s`, whose fields are those of `State.resetOf`; the enables and the matcher
registers are read as words. -/
theorem resetRestoresEverything : Obligations.ResetRestoresEverything := by
  unfold Obligations.ResetRestoresEverything
  intro s
  exact ⟨resetStep s, rfl, rfl, rfl, rfl, rfl, irqenWord_resetStep s, rfl, rfl, rfl,
    fun r h => readReg_resetStep_mcfg h s, List.length_replicate, rfl, rfl, rfl, rfl, rfl, rfl, rfl⟩

end Sys2Proof.Proofs
end
